-- ==== Sys2Proof/Word.lean ====
section
/-! DEFINITION. The two word types of the machine (00_scope.md R5, R7). `add8` and `add16` of R8 are `+` on them. -/

namespace Sys2Proof

/-- An unsigned 8-bit value: A, X, Y, SP, P and a memory cell. -/
abbrev Byte := BitVec 8

/-- An unsigned 16-bit value: PC and an address. -/
abbrev Word := BitVec 16

end Sys2Proof
end

