-- ==== Sys2Proof/Config.lean ====
section
/-! DEFINITION. The three open parameters of 00_scope.md R6. "A model takes each as an argument": the operations that depend on
one take it as an argument, and the meanings pass the constants below, which have no body, so that whatever is proved of the
machine holds for every value (log entries 1 to 3). -/

namespace Sys2Proof

/-- `ZP_POINTER_WRAP` (R6, R90, D2): where the high byte of a zero-page pointer at 0x00FF stands. -/
inductive ZpPointerWrap where
  /-- At 0x0100 (the reference value). -/
  | linear
  /-- At 0x0000. -/
  | page
  deriving DecidableEq, Repr, Inhabited

/-- `DECIMAL_POLICY` (R6, R110, D3): what ADC and SBC do when `P.D = 1`. -/
inductive DecimalPolicy where
  /-- Raise NotImplementedInstruction (the reference value). -/
  | fault
  /-- Compute the binary result. -/
  | binary
  deriving DecidableEq, Repr, Inhabited

/-- `BRK_HALT_B` (R6, R210, D4): the B flag after the halting BRK. There is no reference value. -/
inductive BrkHaltB where
  | unchanged
  | set
  deriving DecidableEq, Repr, Inhabited

/-- The block's value of `ZP_POINTER_WRAP`. DESIGN CHOICE (log entry 1): left open; safe. -/
opaque Config.zpPointerWrap : ZpPointerWrap

/-- The block's value of `DECIMAL_POLICY`. DESIGN CHOICE (log entry 2): left open; safe. -/
opaque Config.decimalPolicy : DecimalPolicy

/-- The block's value of `BRK_HALT_B`. DESIGN CHOICE (log entry 3): left open; safe. -/
opaque Config.brkHaltB : BrkHaltB

end Sys2Proof
end

