-- ==== Sys2Proof/Syntax.lean ====
section
/-! DEFINITION. The instructions as syntax: the thirteen addressing modes (30_encoding.md R80 to R92), the 56 mnemonics,
and `Instr`, one constructor for each of the 151 rows of spec/opcode_table.json (R74), carrying the operand field its mode
gives it (R72). -/

namespace Sys2Proof

/-- The addressing modes, in the order of R71. -/
inductive Mode where
  | implicit | accumulator | immediate | zeroPage | zeroPageX | zeroPageY | absolute | absoluteX
  | absoluteY | indirect | indirectX | indirectY | relative
  deriving DecidableEq, Repr

/-- The 56 mnemonics of R74. A mnemonic is named by its operation; its forms are told apart by `Mode`. -/
inductive Op where
  | adc | sbc | cmp | cpx | cpy | and | ora | eor | bit | lda | ldx | ldy | sta | stx | sty | bcc | bcs
  | beq | bmi | bne | bpl | bvc | bvs | inc | dec | inx | iny | dex | dey | jmp | jsr | rts | asl | lsr
  | rol | ror | pha | php | pla | plp | clc | cld | cli | clv | sec | sed | sei | tax | tay | txa | tya
  | tsx | txs | brk | nop | rti
  deriving DecidableEq, Repr

/-- The operand field of an instruction (R72): none, one byte (`imm8`, `zp8`, `disp8`) or `addr16`. -/
inductive Operand where
  | none
  | byte (v : Byte)
  | word (v : Word)
  deriving DecidableEq, Repr

/-- The instructions: one constructor for each row of spec/opcode_table.json. -/
inductive Instr where
  -- Arithmetic (40_arithmetic.md)
  | adcImmediate (imm8 : Byte)
  | adcZeroPage (zp8 : Byte)
  | adcZeroPageX (zp8 : Byte)
  | adcAbsolute (addr16 : Word)
  | adcAbsoluteX (addr16 : Word)
  | adcAbsoluteY (addr16 : Word)
  | adcIndirectX (zp8 : Byte)
  | adcIndirectY (zp8 : Byte)
  | sbcImmediate (imm8 : Byte)
  | sbcZeroPage (zp8 : Byte)
  | sbcZeroPageX (zp8 : Byte)
  | sbcAbsolute (addr16 : Word)
  | sbcAbsoluteX (addr16 : Word)
  | sbcAbsoluteY (addr16 : Word)
  | sbcIndirectX (zp8 : Byte)
  | sbcIndirectY (zp8 : Byte)
  | cmpImmediate (imm8 : Byte)
  | cmpZeroPage (zp8 : Byte)
  | cmpZeroPageX (zp8 : Byte)
  | cmpAbsolute (addr16 : Word)
  | cmpAbsoluteX (addr16 : Word)
  | cmpAbsoluteY (addr16 : Word)
  | cmpIndirectX (zp8 : Byte)
  | cmpIndirectY (zp8 : Byte)
  | cpxImmediate (imm8 : Byte)
  | cpxZeroPage (zp8 : Byte)
  | cpxAbsolute (addr16 : Word)
  | cpyImmediate (imm8 : Byte)
  | cpyZeroPage (zp8 : Byte)
  | cpyAbsolute (addr16 : Word)
  -- Logical (41_logical.md)
  | andImmediate (imm8 : Byte)
  | andZeroPage (zp8 : Byte)
  | andZeroPageX (zp8 : Byte)
  | andAbsolute (addr16 : Word)
  | andAbsoluteX (addr16 : Word)
  | andAbsoluteY (addr16 : Word)
  | andIndirectX (zp8 : Byte)
  | andIndirectY (zp8 : Byte)
  | oraImmediate (imm8 : Byte)
  | oraZeroPage (zp8 : Byte)
  | oraZeroPageX (zp8 : Byte)
  | oraAbsolute (addr16 : Word)
  | oraAbsoluteX (addr16 : Word)
  | oraAbsoluteY (addr16 : Word)
  | oraIndirectX (zp8 : Byte)
  | oraIndirectY (zp8 : Byte)
  | eorImmediate (imm8 : Byte)
  | eorZeroPage (zp8 : Byte)
  | eorZeroPageX (zp8 : Byte)
  | eorAbsolute (addr16 : Word)
  | eorAbsoluteX (addr16 : Word)
  | eorAbsoluteY (addr16 : Word)
  | eorIndirectX (zp8 : Byte)
  | eorIndirectY (zp8 : Byte)
  | bitZeroPage (zp8 : Byte)
  | bitAbsolute (addr16 : Word)
  -- Load/Store (42_load_store.md)
  | ldaImmediate (imm8 : Byte)
  | ldaZeroPage (zp8 : Byte)
  | ldaZeroPageX (zp8 : Byte)
  | ldaAbsolute (addr16 : Word)
  | ldaAbsoluteX (addr16 : Word)
  | ldaAbsoluteY (addr16 : Word)
  | ldaIndirectX (zp8 : Byte)
  | ldaIndirectY (zp8 : Byte)
  | ldxImmediate (imm8 : Byte)
  | ldxZeroPage (zp8 : Byte)
  | ldxZeroPageY (zp8 : Byte)
  | ldxAbsolute (addr16 : Word)
  | ldxAbsoluteY (addr16 : Word)
  | ldyImmediate (imm8 : Byte)
  | ldyZeroPage (zp8 : Byte)
  | ldyZeroPageX (zp8 : Byte)
  | ldyAbsolute (addr16 : Word)
  | ldyAbsoluteX (addr16 : Word)
  | staZeroPage (zp8 : Byte)
  | staZeroPageX (zp8 : Byte)
  | staAbsolute (addr16 : Word)
  | staAbsoluteX (addr16 : Word)
  | staAbsoluteY (addr16 : Word)
  | staIndirectX (zp8 : Byte)
  | staIndirectY (zp8 : Byte)
  | stxZeroPage (zp8 : Byte)
  | stxZeroPageY (zp8 : Byte)
  | stxAbsolute (addr16 : Word)
  | styZeroPage (zp8 : Byte)
  | styZeroPageX (zp8 : Byte)
  | styAbsolute (addr16 : Word)
  -- Branches (43_branches.md)
  | bcc (disp8 : Byte)
  | bcs (disp8 : Byte)
  | beq (disp8 : Byte)
  | bmi (disp8 : Byte)
  | bne (disp8 : Byte)
  | bpl (disp8 : Byte)
  | bvc (disp8 : Byte)
  | bvs (disp8 : Byte)
  -- Increment/Decrement (44_inc_dec.md)
  | incZeroPage (zp8 : Byte)
  | incZeroPageX (zp8 : Byte)
  | incAbsolute (addr16 : Word)
  | incAbsoluteX (addr16 : Word)
  | decZeroPage (zp8 : Byte)
  | decZeroPageX (zp8 : Byte)
  | decAbsolute (addr16 : Word)
  | decAbsoluteX (addr16 : Word)
  | inx
  | iny
  | dex
  | dey
  -- Jumps/Calls (45_jumps_calls.md)
  | jmpAbsolute (addr16 : Word)
  | jmpIndirect (addr16 : Word)
  | jsr (addr16 : Word)
  | rts
  -- Shifts (46_shifts.md)
  | aslAccumulator
  | aslZeroPage (zp8 : Byte)
  | aslZeroPageX (zp8 : Byte)
  | aslAbsolute (addr16 : Word)
  | aslAbsoluteX (addr16 : Word)
  | lsrAccumulator
  | lsrZeroPage (zp8 : Byte)
  | lsrZeroPageX (zp8 : Byte)
  | lsrAbsolute (addr16 : Word)
  | lsrAbsoluteX (addr16 : Word)
  | rolAccumulator
  | rolZeroPage (zp8 : Byte)
  | rolZeroPageX (zp8 : Byte)
  | rolAbsolute (addr16 : Word)
  | rolAbsoluteX (addr16 : Word)
  | rorAccumulator
  | rorZeroPage (zp8 : Byte)
  | rorZeroPageX (zp8 : Byte)
  | rorAbsolute (addr16 : Word)
  | rorAbsoluteX (addr16 : Word)
  -- Stack Operations (47_stack.md)
  | pha
  | php
  | pla
  | plp
  -- Status-Flag Change (48_flags_transfers.md)
  | clc
  | cld
  | cli
  | clv
  | sec
  | sed
  | sei
  -- Register Transfers (48_flags_transfers.md)
  | tax
  | tay
  | txa
  | tya
  | tsx
  | txs
  -- System Functions (49_system.md)
  | brk
  | nop
  | rti
  deriving DecidableEq, Repr

/-- The mnemonic of an instruction: its row of R74. -/
def Instr.op : Instr → Op
  | .adcImmediate _ | .adcZeroPage _ | .adcZeroPageX _ | .adcAbsolute _ | .adcAbsoluteX _
  | .adcAbsoluteY _ | .adcIndirectX _ | .adcIndirectY _ => .adc
  | .sbcImmediate _ | .sbcZeroPage _ | .sbcZeroPageX _ | .sbcAbsolute _ | .sbcAbsoluteX _
  | .sbcAbsoluteY _ | .sbcIndirectX _ | .sbcIndirectY _ => .sbc
  | .cmpImmediate _ | .cmpZeroPage _ | .cmpZeroPageX _ | .cmpAbsolute _ | .cmpAbsoluteX _
  | .cmpAbsoluteY _ | .cmpIndirectX _ | .cmpIndirectY _ => .cmp
  | .cpxImmediate _ | .cpxZeroPage _ | .cpxAbsolute _ => .cpx
  | .cpyImmediate _ | .cpyZeroPage _ | .cpyAbsolute _ => .cpy
  | .andImmediate _ | .andZeroPage _ | .andZeroPageX _ | .andAbsolute _ | .andAbsoluteX _
  | .andAbsoluteY _ | .andIndirectX _ | .andIndirectY _ => .and
  | .oraImmediate _ | .oraZeroPage _ | .oraZeroPageX _ | .oraAbsolute _ | .oraAbsoluteX _
  | .oraAbsoluteY _ | .oraIndirectX _ | .oraIndirectY _ => .ora
  | .eorImmediate _ | .eorZeroPage _ | .eorZeroPageX _ | .eorAbsolute _ | .eorAbsoluteX _
  | .eorAbsoluteY _ | .eorIndirectX _ | .eorIndirectY _ => .eor
  | .bitZeroPage _ | .bitAbsolute _ => .bit
  | .ldaImmediate _ | .ldaZeroPage _ | .ldaZeroPageX _ | .ldaAbsolute _ | .ldaAbsoluteX _
  | .ldaAbsoluteY _ | .ldaIndirectX _ | .ldaIndirectY _ => .lda
  | .ldxImmediate _ | .ldxZeroPage _ | .ldxZeroPageY _ | .ldxAbsolute _ | .ldxAbsoluteY _ => .ldx
  | .ldyImmediate _ | .ldyZeroPage _ | .ldyZeroPageX _ | .ldyAbsolute _ | .ldyAbsoluteX _ => .ldy
  | .staZeroPage _ | .staZeroPageX _ | .staAbsolute _ | .staAbsoluteX _ | .staAbsoluteY _
  | .staIndirectX _ | .staIndirectY _ => .sta
  | .stxZeroPage _ | .stxZeroPageY _ | .stxAbsolute _ => .stx
  | .styZeroPage _ | .styZeroPageX _ | .styAbsolute _ => .sty
  | .bcc _ => .bcc
  | .bcs _ => .bcs
  | .beq _ => .beq
  | .bmi _ => .bmi
  | .bne _ => .bne
  | .bpl _ => .bpl
  | .bvc _ => .bvc
  | .bvs _ => .bvs
  | .incZeroPage _ | .incZeroPageX _ | .incAbsolute _ | .incAbsoluteX _ => .inc
  | .decZeroPage _ | .decZeroPageX _ | .decAbsolute _ | .decAbsoluteX _ => .dec
  | .inx => .inx
  | .iny => .iny
  | .dex => .dex
  | .dey => .dey
  | .jmpAbsolute _ | .jmpIndirect _ => .jmp
  | .jsr _ => .jsr
  | .rts => .rts
  | .aslAccumulator | .aslZeroPage _ | .aslZeroPageX _ | .aslAbsolute _ | .aslAbsoluteX _ => .asl
  | .lsrAccumulator | .lsrZeroPage _ | .lsrZeroPageX _ | .lsrAbsolute _ | .lsrAbsoluteX _ => .lsr
  | .rolAccumulator | .rolZeroPage _ | .rolZeroPageX _ | .rolAbsolute _ | .rolAbsoluteX _ => .rol
  | .rorAccumulator | .rorZeroPage _ | .rorZeroPageX _ | .rorAbsolute _ | .rorAbsoluteX _ => .ror
  | .pha => .pha
  | .php => .php
  | .pla => .pla
  | .plp => .plp
  | .clc => .clc
  | .cld => .cld
  | .cli => .cli
  | .clv => .clv
  | .sec => .sec
  | .sed => .sed
  | .sei => .sei
  | .tax => .tax
  | .tay => .tay
  | .txa => .txa
  | .tya => .tya
  | .tsx => .tsx
  | .txs => .txs
  | .brk => .brk
  | .nop => .nop
  | .rti => .rti

/-- The addressing mode of an instruction: its column of R74. -/
def Instr.mode : Instr → Mode
  | .inx | .iny | .dex | .dey | .rts | .pha | .php | .pla | .plp | .clc | .cld | .cli | .clv | .sec
  | .sed | .sei | .tax | .tay | .txa | .tya | .tsx | .txs | .brk | .nop | .rti => .implicit
  | .aslAccumulator | .lsrAccumulator | .rolAccumulator | .rorAccumulator => .accumulator
  | .adcImmediate _ | .sbcImmediate _ | .cmpImmediate _ | .cpxImmediate _ | .cpyImmediate _
  | .andImmediate _ | .oraImmediate _ | .eorImmediate _ | .ldaImmediate _ | .ldxImmediate _
  | .ldyImmediate _ => .immediate
  | .adcZeroPage _ | .sbcZeroPage _ | .cmpZeroPage _ | .cpxZeroPage _ | .cpyZeroPage _ | .andZeroPage _
  | .oraZeroPage _ | .eorZeroPage _ | .bitZeroPage _ | .ldaZeroPage _ | .ldxZeroPage _ | .ldyZeroPage _
  | .staZeroPage _ | .stxZeroPage _ | .styZeroPage _ | .incZeroPage _ | .decZeroPage _ | .aslZeroPage _
  | .lsrZeroPage _ | .rolZeroPage _ | .rorZeroPage _ => .zeroPage
  | .adcZeroPageX _ | .sbcZeroPageX _ | .cmpZeroPageX _ | .andZeroPageX _ | .oraZeroPageX _
  | .eorZeroPageX _ | .ldaZeroPageX _ | .ldyZeroPageX _ | .staZeroPageX _ | .styZeroPageX _
  | .incZeroPageX _ | .decZeroPageX _ | .aslZeroPageX _ | .lsrZeroPageX _ | .rolZeroPageX _
  | .rorZeroPageX _ => .zeroPageX
  | .ldxZeroPageY _ | .stxZeroPageY _ => .zeroPageY
  | .adcAbsolute _ | .sbcAbsolute _ | .cmpAbsolute _ | .cpxAbsolute _ | .cpyAbsolute _ | .andAbsolute _
  | .oraAbsolute _ | .eorAbsolute _ | .bitAbsolute _ | .ldaAbsolute _ | .ldxAbsolute _ | .ldyAbsolute _
  | .staAbsolute _ | .stxAbsolute _ | .styAbsolute _ | .incAbsolute _ | .decAbsolute _ | .jmpAbsolute _
  | .jsr _ | .aslAbsolute _ | .lsrAbsolute _ | .rolAbsolute _ | .rorAbsolute _ => .absolute
  | .adcAbsoluteX _ | .sbcAbsoluteX _ | .cmpAbsoluteX _ | .andAbsoluteX _ | .oraAbsoluteX _
  | .eorAbsoluteX _ | .ldaAbsoluteX _ | .ldyAbsoluteX _ | .staAbsoluteX _ | .incAbsoluteX _
  | .decAbsoluteX _ | .aslAbsoluteX _ | .lsrAbsoluteX _ | .rolAbsoluteX _ | .rorAbsoluteX _ => .absoluteX
  | .adcAbsoluteY _ | .sbcAbsoluteY _ | .cmpAbsoluteY _ | .andAbsoluteY _ | .oraAbsoluteY _
  | .eorAbsoluteY _ | .ldaAbsoluteY _ | .ldxAbsoluteY _ | .staAbsoluteY _ => .absoluteY
  | .jmpIndirect _ => .indirect
  | .adcIndirectX _ | .sbcIndirectX _ | .cmpIndirectX _ | .andIndirectX _ | .oraIndirectX _
  | .eorIndirectX _ | .ldaIndirectX _ | .staIndirectX _ => .indirectX
  | .adcIndirectY _ | .sbcIndirectY _ | .cmpIndirectY _ | .andIndirectY _ | .oraIndirectY _
  | .eorIndirectY _ | .ldaIndirectY _ | .staIndirectY _ => .indirectY
  | .bcc _ | .bcs _ | .beq _ | .bmi _ | .bne _ | .bpl _ | .bvc _ | .bvs _ => .relative

/-- The operand field an instruction carries (R72). -/
def Instr.operand : Instr → Operand
  | .inx | .iny | .dex | .dey | .rts | .aslAccumulator | .lsrAccumulator | .rolAccumulator
  | .rorAccumulator | .pha | .php | .pla | .plp | .clc | .cld | .cli | .clv | .sec | .sed | .sei | .tax
  | .tay | .txa | .tya | .tsx | .txs | .brk | .nop | .rti => .none
  | .adcImmediate v | .adcZeroPage v | .adcZeroPageX v | .adcIndirectX v | .adcIndirectY v
  | .sbcImmediate v | .sbcZeroPage v | .sbcZeroPageX v | .sbcIndirectX v | .sbcIndirectY v
  | .cmpImmediate v | .cmpZeroPage v | .cmpZeroPageX v | .cmpIndirectX v | .cmpIndirectY v
  | .cpxImmediate v | .cpxZeroPage v | .cpyImmediate v | .cpyZeroPage v | .andImmediate v
  | .andZeroPage v | .andZeroPageX v | .andIndirectX v | .andIndirectY v | .oraImmediate v
  | .oraZeroPage v | .oraZeroPageX v | .oraIndirectX v | .oraIndirectY v | .eorImmediate v
  | .eorZeroPage v | .eorZeroPageX v | .eorIndirectX v | .eorIndirectY v | .bitZeroPage v
  | .ldaImmediate v | .ldaZeroPage v | .ldaZeroPageX v | .ldaIndirectX v | .ldaIndirectY v
  | .ldxImmediate v | .ldxZeroPage v | .ldxZeroPageY v | .ldyImmediate v | .ldyZeroPage v
  | .ldyZeroPageX v | .staZeroPage v | .staZeroPageX v | .staIndirectX v | .staIndirectY v
  | .stxZeroPage v | .stxZeroPageY v | .styZeroPage v | .styZeroPageX v | .bcc v | .bcs v | .beq v
  | .bmi v | .bne v | .bpl v | .bvc v | .bvs v | .incZeroPage v | .incZeroPageX v | .decZeroPage v
  | .decZeroPageX v | .aslZeroPage v | .aslZeroPageX v | .lsrZeroPage v | .lsrZeroPageX v
  | .rolZeroPage v | .rolZeroPageX v | .rorZeroPage v | .rorZeroPageX v => .byte v
  | .adcAbsolute v | .adcAbsoluteX v | .adcAbsoluteY v | .sbcAbsolute v | .sbcAbsoluteX v
  | .sbcAbsoluteY v | .cmpAbsolute v | .cmpAbsoluteX v | .cmpAbsoluteY v | .cpxAbsolute v
  | .cpyAbsolute v | .andAbsolute v | .andAbsoluteX v | .andAbsoluteY v | .oraAbsolute v
  | .oraAbsoluteX v | .oraAbsoluteY v | .eorAbsolute v | .eorAbsoluteX v | .eorAbsoluteY v
  | .bitAbsolute v | .ldaAbsolute v | .ldaAbsoluteX v | .ldaAbsoluteY v | .ldxAbsolute v
  | .ldxAbsoluteY v | .ldyAbsolute v | .ldyAbsoluteX v | .staAbsolute v | .staAbsoluteX v
  | .staAbsoluteY v | .stxAbsolute v | .styAbsolute v | .incAbsolute v | .incAbsoluteX v
  | .decAbsolute v | .decAbsoluteX v | .jmpAbsolute v | .jmpIndirect v | .jsr v | .aslAbsolute v
  | .aslAbsoluteX v | .lsrAbsolute v | .lsrAbsoluteX v | .rolAbsolute v | .rolAbsoluteX v
  | .rorAbsolute v | .rorAbsoluteX v => .word v

end Sys2Proof
end

