-- ==== Sys2Proof/Decode.lean ====
section
/-! DEFINITION. The decoder, total on any bytes and rejecting by name (30_encoding.md R70 to R76), written from the opcode
map of R74, and after it the encoder, written from the encodings the instruction rules give (R111 to R212, "Encoding"). -/

namespace Sys2Proof

/-- The word `hi:lo` (00_scope.md R8). -/
def join (hi lo : Byte) : Word := hi ++ lo

/-- `v[15:8]` (R7). -/
def hiByte (v : Word) : Byte := v.extractLsb' 8 8

/-- `v[7:0]` (R7). -/
def loByte (v : Word) : Byte := v.extractLsb' 0 8

/-- Length in bytes, fixed by the addressing mode (R71). -/
def Mode.length : Mode → Nat
  | .implicit | .accumulator => 1
  | .immediate | .zeroPage | .zeroPageX | .zeroPageY | .indirectX | .indirectY | .relative => 2
  | .absolute | .absoluteX | .absoluteY | .indirect => 3

/-- How a row's operand bytes make an instruction: no operand byte, one, or two (R71, R72). -/
inductive RowForm where
  | implied (i : Instr)
  | byte (f : Byte → Instr)
  | word (f : Word → Instr)

/-- One row of the opcode map: the opcode byte, the addressing mode, and the instruction. -/
structure OpcodeRow where
  opcode : Byte
  mode : Mode
  form : RowForm

/-- R74, family Arithmetic. -/
def rowsArithmetic : List OpcodeRow := [
  ⟨0x69, .immediate, .byte .adcImmediate⟩,
  ⟨0x65, .zeroPage, .byte .adcZeroPage⟩,
  ⟨0x75, .zeroPageX, .byte .adcZeroPageX⟩,
  ⟨0x6D, .absolute, .word .adcAbsolute⟩,
  ⟨0x7D, .absoluteX, .word .adcAbsoluteX⟩,
  ⟨0x79, .absoluteY, .word .adcAbsoluteY⟩,
  ⟨0x61, .indirectX, .byte .adcIndirectX⟩,
  ⟨0x71, .indirectY, .byte .adcIndirectY⟩,
  ⟨0xE9, .immediate, .byte .sbcImmediate⟩,
  ⟨0xE5, .zeroPage, .byte .sbcZeroPage⟩,
  ⟨0xF5, .zeroPageX, .byte .sbcZeroPageX⟩,
  ⟨0xED, .absolute, .word .sbcAbsolute⟩,
  ⟨0xFD, .absoluteX, .word .sbcAbsoluteX⟩,
  ⟨0xF9, .absoluteY, .word .sbcAbsoluteY⟩,
  ⟨0xE1, .indirectX, .byte .sbcIndirectX⟩,
  ⟨0xF1, .indirectY, .byte .sbcIndirectY⟩,
  ⟨0xC9, .immediate, .byte .cmpImmediate⟩,
  ⟨0xC5, .zeroPage, .byte .cmpZeroPage⟩,
  ⟨0xD5, .zeroPageX, .byte .cmpZeroPageX⟩,
  ⟨0xCD, .absolute, .word .cmpAbsolute⟩,
  ⟨0xDD, .absoluteX, .word .cmpAbsoluteX⟩,
  ⟨0xD9, .absoluteY, .word .cmpAbsoluteY⟩,
  ⟨0xC1, .indirectX, .byte .cmpIndirectX⟩,
  ⟨0xD1, .indirectY, .byte .cmpIndirectY⟩,
  ⟨0xE0, .immediate, .byte .cpxImmediate⟩,
  ⟨0xE4, .zeroPage, .byte .cpxZeroPage⟩,
  ⟨0xEC, .absolute, .word .cpxAbsolute⟩,
  ⟨0xC0, .immediate, .byte .cpyImmediate⟩,
  ⟨0xC4, .zeroPage, .byte .cpyZeroPage⟩,
  ⟨0xCC, .absolute, .word .cpyAbsolute⟩ ]

/-- R74, family Logical. -/
def rowsLogical : List OpcodeRow := [
  ⟨0x29, .immediate, .byte .andImmediate⟩,
  ⟨0x25, .zeroPage, .byte .andZeroPage⟩,
  ⟨0x35, .zeroPageX, .byte .andZeroPageX⟩,
  ⟨0x2D, .absolute, .word .andAbsolute⟩,
  ⟨0x3D, .absoluteX, .word .andAbsoluteX⟩,
  ⟨0x39, .absoluteY, .word .andAbsoluteY⟩,
  ⟨0x21, .indirectX, .byte .andIndirectX⟩,
  ⟨0x31, .indirectY, .byte .andIndirectY⟩,
  ⟨0x09, .immediate, .byte .oraImmediate⟩,
  ⟨0x05, .zeroPage, .byte .oraZeroPage⟩,
  ⟨0x15, .zeroPageX, .byte .oraZeroPageX⟩,
  ⟨0x0D, .absolute, .word .oraAbsolute⟩,
  ⟨0x1D, .absoluteX, .word .oraAbsoluteX⟩,
  ⟨0x19, .absoluteY, .word .oraAbsoluteY⟩,
  ⟨0x01, .indirectX, .byte .oraIndirectX⟩,
  ⟨0x11, .indirectY, .byte .oraIndirectY⟩,
  ⟨0x49, .immediate, .byte .eorImmediate⟩,
  ⟨0x45, .zeroPage, .byte .eorZeroPage⟩,
  ⟨0x55, .zeroPageX, .byte .eorZeroPageX⟩,
  ⟨0x4D, .absolute, .word .eorAbsolute⟩,
  ⟨0x5D, .absoluteX, .word .eorAbsoluteX⟩,
  ⟨0x59, .absoluteY, .word .eorAbsoluteY⟩,
  ⟨0x41, .indirectX, .byte .eorIndirectX⟩,
  ⟨0x51, .indirectY, .byte .eorIndirectY⟩,
  ⟨0x24, .zeroPage, .byte .bitZeroPage⟩,
  ⟨0x2C, .absolute, .word .bitAbsolute⟩ ]

/-- R74, family Load/Store. -/
def rowsLoadStore : List OpcodeRow := [
  ⟨0xA9, .immediate, .byte .ldaImmediate⟩,
  ⟨0xA5, .zeroPage, .byte .ldaZeroPage⟩,
  ⟨0xB5, .zeroPageX, .byte .ldaZeroPageX⟩,
  ⟨0xAD, .absolute, .word .ldaAbsolute⟩,
  ⟨0xBD, .absoluteX, .word .ldaAbsoluteX⟩,
  ⟨0xB9, .absoluteY, .word .ldaAbsoluteY⟩,
  ⟨0xA1, .indirectX, .byte .ldaIndirectX⟩,
  ⟨0xB1, .indirectY, .byte .ldaIndirectY⟩,
  ⟨0xA2, .immediate, .byte .ldxImmediate⟩,
  ⟨0xA6, .zeroPage, .byte .ldxZeroPage⟩,
  ⟨0xB6, .zeroPageY, .byte .ldxZeroPageY⟩,
  ⟨0xAE, .absolute, .word .ldxAbsolute⟩,
  ⟨0xBE, .absoluteY, .word .ldxAbsoluteY⟩,
  ⟨0xA0, .immediate, .byte .ldyImmediate⟩,
  ⟨0xA4, .zeroPage, .byte .ldyZeroPage⟩,
  ⟨0xB4, .zeroPageX, .byte .ldyZeroPageX⟩,
  ⟨0xAC, .absolute, .word .ldyAbsolute⟩,
  ⟨0xBC, .absoluteX, .word .ldyAbsoluteX⟩,
  ⟨0x85, .zeroPage, .byte .staZeroPage⟩,
  ⟨0x95, .zeroPageX, .byte .staZeroPageX⟩,
  ⟨0x8D, .absolute, .word .staAbsolute⟩,
  ⟨0x9D, .absoluteX, .word .staAbsoluteX⟩,
  ⟨0x99, .absoluteY, .word .staAbsoluteY⟩,
  ⟨0x81, .indirectX, .byte .staIndirectX⟩,
  ⟨0x91, .indirectY, .byte .staIndirectY⟩,
  ⟨0x86, .zeroPage, .byte .stxZeroPage⟩,
  ⟨0x96, .zeroPageY, .byte .stxZeroPageY⟩,
  ⟨0x8E, .absolute, .word .stxAbsolute⟩,
  ⟨0x84, .zeroPage, .byte .styZeroPage⟩,
  ⟨0x94, .zeroPageX, .byte .styZeroPageX⟩,
  ⟨0x8C, .absolute, .word .styAbsolute⟩ ]

/-- R74, family Branches. -/
def rowsBranches : List OpcodeRow := [
  ⟨0x90, .relative, .byte .bcc⟩,
  ⟨0xB0, .relative, .byte .bcs⟩,
  ⟨0xF0, .relative, .byte .beq⟩,
  ⟨0x30, .relative, .byte .bmi⟩,
  ⟨0xD0, .relative, .byte .bne⟩,
  ⟨0x10, .relative, .byte .bpl⟩,
  ⟨0x50, .relative, .byte .bvc⟩,
  ⟨0x70, .relative, .byte .bvs⟩ ]

/-- R74, family Increment/Decrement. -/
def rowsIncrementDecrement : List OpcodeRow := [
  ⟨0xE6, .zeroPage, .byte .incZeroPage⟩,
  ⟨0xF6, .zeroPageX, .byte .incZeroPageX⟩,
  ⟨0xEE, .absolute, .word .incAbsolute⟩,
  ⟨0xFE, .absoluteX, .word .incAbsoluteX⟩,
  ⟨0xC6, .zeroPage, .byte .decZeroPage⟩,
  ⟨0xD6, .zeroPageX, .byte .decZeroPageX⟩,
  ⟨0xCE, .absolute, .word .decAbsolute⟩,
  ⟨0xDE, .absoluteX, .word .decAbsoluteX⟩,
  ⟨0xE8, .implicit, .implied .inx⟩,
  ⟨0xC8, .implicit, .implied .iny⟩,
  ⟨0xCA, .implicit, .implied .dex⟩,
  ⟨0x88, .implicit, .implied .dey⟩ ]

/-- R74, family Jumps/Calls. -/
def rowsJumpsCalls : List OpcodeRow := [
  ⟨0x4C, .absolute, .word .jmpAbsolute⟩,
  ⟨0x6C, .indirect, .word .jmpIndirect⟩,
  ⟨0x20, .absolute, .word .jsr⟩,
  ⟨0x60, .implicit, .implied .rts⟩ ]

/-- R74, family Shifts. -/
def rowsShifts : List OpcodeRow := [
  ⟨0x0A, .accumulator, .implied .aslAccumulator⟩,
  ⟨0x06, .zeroPage, .byte .aslZeroPage⟩,
  ⟨0x16, .zeroPageX, .byte .aslZeroPageX⟩,
  ⟨0x0E, .absolute, .word .aslAbsolute⟩,
  ⟨0x1E, .absoluteX, .word .aslAbsoluteX⟩,
  ⟨0x4A, .accumulator, .implied .lsrAccumulator⟩,
  ⟨0x46, .zeroPage, .byte .lsrZeroPage⟩,
  ⟨0x56, .zeroPageX, .byte .lsrZeroPageX⟩,
  ⟨0x4E, .absolute, .word .lsrAbsolute⟩,
  ⟨0x5E, .absoluteX, .word .lsrAbsoluteX⟩,
  ⟨0x2A, .accumulator, .implied .rolAccumulator⟩,
  ⟨0x26, .zeroPage, .byte .rolZeroPage⟩,
  ⟨0x36, .zeroPageX, .byte .rolZeroPageX⟩,
  ⟨0x2E, .absolute, .word .rolAbsolute⟩,
  ⟨0x3E, .absoluteX, .word .rolAbsoluteX⟩,
  ⟨0x6A, .accumulator, .implied .rorAccumulator⟩,
  ⟨0x66, .zeroPage, .byte .rorZeroPage⟩,
  ⟨0x76, .zeroPageX, .byte .rorZeroPageX⟩,
  ⟨0x6E, .absolute, .word .rorAbsolute⟩,
  ⟨0x7E, .absoluteX, .word .rorAbsoluteX⟩ ]

/-- R74, family Stack Operations. -/
def rowsStackOperations : List OpcodeRow := [
  ⟨0x48, .implicit, .implied .pha⟩,
  ⟨0x08, .implicit, .implied .php⟩,
  ⟨0x68, .implicit, .implied .pla⟩,
  ⟨0x28, .implicit, .implied .plp⟩ ]

/-- R74, family Status-Flag Change. -/
def rowsStatusFlagChange : List OpcodeRow := [
  ⟨0x18, .implicit, .implied .clc⟩,
  ⟨0xD8, .implicit, .implied .cld⟩,
  ⟨0x58, .implicit, .implied .cli⟩,
  ⟨0xB8, .implicit, .implied .clv⟩,
  ⟨0x38, .implicit, .implied .sec⟩,
  ⟨0xF8, .implicit, .implied .sed⟩,
  ⟨0x78, .implicit, .implied .sei⟩ ]

/-- R74, family Register Transfers. -/
def rowsRegisterTransfers : List OpcodeRow := [
  ⟨0xAA, .implicit, .implied .tax⟩,
  ⟨0xA8, .implicit, .implied .tay⟩,
  ⟨0x8A, .implicit, .implied .txa⟩,
  ⟨0x98, .implicit, .implied .tya⟩,
  ⟨0xBA, .implicit, .implied .tsx⟩,
  ⟨0x9A, .implicit, .implied .txs⟩ ]

/-- R74, family System Functions. -/
def rowsSystemFunctions : List OpcodeRow := [
  ⟨0x00, .implicit, .implied .brk⟩,
  ⟨0xEA, .implicit, .implied .nop⟩,
  ⟨0x40, .implicit, .implied .rti⟩ ]

/-- The opcode map of R74: 151 rows. -/
def opcodeTable : List OpcodeRow :=
  rowsArithmetic ++ rowsLogical ++ rowsLoadStore ++ rowsBranches
  ++ rowsIncrementDecrement ++ rowsJumpsCalls ++ rowsShifts ++ rowsStackOperations
  ++ rowsStatusFlagChange ++ rowsRegisterTransfers ++ rowsSystemFunctions

/-- The row of an opcode byte, if one maps it. -/
def lookupRow : List OpcodeRow → Byte → Option OpcodeRow
  | [], _ => none
  | r :: rows, b => if r.opcode = b then some r else lookupRow rows b

/-- Why bytes are not an instruction. -/
inductive DecodeError where
  /-- The opcode byte is one of the 105 that R74 does not map (R73, R75). -/
  | invalidOpcode (b : Byte)
  /-- The list ends before the instruction does. Memory never does this: addresses wrap (R95). -/
  | truncated
  deriving DecidableEq, Repr

/-- The instruction a row makes of the bytes after the opcode (R72: `addr16 = byte2:byte1`), and the bytes left over. -/
def RowForm.take : RowForm → List Byte → Except DecodeError (Instr × List Byte)
  | .implied i, rest => .ok (i, rest)
  | .byte f, v :: rest => .ok (f v, rest)
  | .word f, lo :: hi :: rest => .ok (f (join hi lo), rest)
  | .byte _, [] | .word _, [] | .word _, [_] => .error .truncated

/-- Decode one instruction from the front of a list of bytes (R73, R76: the first byte alone decides the instruction). -/
def decode : List Byte → Except DecodeError (Instr × List Byte)
  | [] => .error .truncated
  | b :: rest =>
    match lookupRow opcodeTable b with
    | none => .error (.invalidOpcode b)
    | some r => r.form.take rest

/-- The three bytes of a number, bits counted from the least significant bit of the first byte. -/
def bytesOfNat (w : Nat) : List Byte :=
  [BitVec.ofNat 8 w, BitVec.ofNat 8 (w / 256), BitVec.ofNat 8 (w / 65536)]

/-- What the decoder reads from an instruction whose bits are `w`, numbered as spec/opcode_table.json numbers them; every bit
from `nbits` on is 0. -/
def decodeTableWord (nbits w : Nat) : Option Instr :=
  match decode (bytesOfNat (w % 2 ^ nbits)) with
  | .ok (i, _) => some i
  | .error _ => none

/-- The opcode byte of an instruction, from the "Encoding" line of its rule. -/
def Instr.opcode : Instr → Byte
  -- ADC, R111
  | .adcImmediate _ => 0x69
  | .adcZeroPage _ => 0x65
  | .adcZeroPageX _ => 0x75
  | .adcAbsolute _ => 0x6D
  | .adcAbsoluteX _ => 0x7D
  | .adcAbsoluteY _ => 0x79
  | .adcIndirectX _ => 0x61
  | .adcIndirectY _ => 0x71
  -- SBC, R112
  | .sbcImmediate _ => 0xE9
  | .sbcZeroPage _ => 0xE5
  | .sbcZeroPageX _ => 0xF5
  | .sbcAbsolute _ => 0xED
  | .sbcAbsoluteX _ => 0xFD
  | .sbcAbsoluteY _ => 0xF9
  | .sbcIndirectX _ => 0xE1
  | .sbcIndirectY _ => 0xF1
  -- CMP, R114
  | .cmpImmediate _ => 0xC9
  | .cmpZeroPage _ => 0xC5
  | .cmpZeroPageX _ => 0xD5
  | .cmpAbsolute _ => 0xCD
  | .cmpAbsoluteX _ => 0xDD
  | .cmpAbsoluteY _ => 0xD9
  | .cmpIndirectX _ => 0xC1
  | .cmpIndirectY _ => 0xD1
  -- CPX, R115
  | .cpxImmediate _ => 0xE0
  | .cpxZeroPage _ => 0xE4
  | .cpxAbsolute _ => 0xEC
  -- CPY, R116
  | .cpyImmediate _ => 0xC0
  | .cpyZeroPage _ => 0xC4
  | .cpyAbsolute _ => 0xCC
  -- AND, R120
  | .andImmediate _ => 0x29
  | .andZeroPage _ => 0x25
  | .andZeroPageX _ => 0x35
  | .andAbsolute _ => 0x2D
  | .andAbsoluteX _ => 0x3D
  | .andAbsoluteY _ => 0x39
  | .andIndirectX _ => 0x21
  | .andIndirectY _ => 0x31
  -- ORA, R121
  | .oraImmediate _ => 0x09
  | .oraZeroPage _ => 0x05
  | .oraZeroPageX _ => 0x15
  | .oraAbsolute _ => 0x0D
  | .oraAbsoluteX _ => 0x1D
  | .oraAbsoluteY _ => 0x19
  | .oraIndirectX _ => 0x01
  | .oraIndirectY _ => 0x11
  -- EOR, R122
  | .eorImmediate _ => 0x49
  | .eorZeroPage _ => 0x45
  | .eorZeroPageX _ => 0x55
  | .eorAbsolute _ => 0x4D
  | .eorAbsoluteX _ => 0x5D
  | .eorAbsoluteY _ => 0x59
  | .eorIndirectX _ => 0x41
  | .eorIndirectY _ => 0x51
  -- BIT, R123
  | .bitZeroPage _ => 0x24
  | .bitAbsolute _ => 0x2C
  -- LDA, R130
  | .ldaImmediate _ => 0xA9
  | .ldaZeroPage _ => 0xA5
  | .ldaZeroPageX _ => 0xB5
  | .ldaAbsolute _ => 0xAD
  | .ldaAbsoluteX _ => 0xBD
  | .ldaAbsoluteY _ => 0xB9
  | .ldaIndirectX _ => 0xA1
  | .ldaIndirectY _ => 0xB1
  -- LDX, R131
  | .ldxImmediate _ => 0xA2
  | .ldxZeroPage _ => 0xA6
  | .ldxZeroPageY _ => 0xB6
  | .ldxAbsolute _ => 0xAE
  | .ldxAbsoluteY _ => 0xBE
  -- LDY, R132
  | .ldyImmediate _ => 0xA0
  | .ldyZeroPage _ => 0xA4
  | .ldyZeroPageX _ => 0xB4
  | .ldyAbsolute _ => 0xAC
  | .ldyAbsoluteX _ => 0xBC
  -- STA, R133
  | .staZeroPage _ => 0x85
  | .staZeroPageX _ => 0x95
  | .staAbsolute _ => 0x8D
  | .staAbsoluteX _ => 0x9D
  | .staAbsoluteY _ => 0x99
  | .staIndirectX _ => 0x81
  | .staIndirectY _ => 0x91
  -- STX, R134
  | .stxZeroPage _ => 0x86
  | .stxZeroPageY _ => 0x96
  | .stxAbsolute _ => 0x8E
  -- STY, R135
  | .styZeroPage _ => 0x84
  | .styZeroPageX _ => 0x94
  | .styAbsolute _ => 0x8C
  -- BCC, R141
  | .bcc _ => 0x90
  -- BCS, R142
  | .bcs _ => 0xB0
  -- BEQ, R143
  | .beq _ => 0xF0
  -- BMI, R144
  | .bmi _ => 0x30
  -- BNE, R145
  | .bne _ => 0xD0
  -- BPL, R146
  | .bpl _ => 0x10
  -- BVC, R147
  | .bvc _ => 0x50
  -- BVS, R148
  | .bvs _ => 0x70
  -- INC, R150
  | .incZeroPage _ => 0xE6
  | .incZeroPageX _ => 0xF6
  | .incAbsolute _ => 0xEE
  | .incAbsoluteX _ => 0xFE
  -- DEC, R151
  | .decZeroPage _ => 0xC6
  | .decZeroPageX _ => 0xD6
  | .decAbsolute _ => 0xCE
  | .decAbsoluteX _ => 0xDE
  -- INX, R152
  | .inx => 0xE8
  -- INY, R153
  | .iny => 0xC8
  -- DEX, R154
  | .dex => 0xCA
  -- DEY, R155
  | .dey => 0x88
  -- JMP, R160
  | .jmpAbsolute _ => 0x4C
  | .jmpIndirect _ => 0x6C
  -- JSR, R161
  | .jsr _ => 0x20
  -- RTS, R162
  | .rts => 0x60
  -- ASL, R170
  | .aslAccumulator => 0x0A
  | .aslZeroPage _ => 0x06
  | .aslZeroPageX _ => 0x16
  | .aslAbsolute _ => 0x0E
  | .aslAbsoluteX _ => 0x1E
  -- LSR, R171
  | .lsrAccumulator => 0x4A
  | .lsrZeroPage _ => 0x46
  | .lsrZeroPageX _ => 0x56
  | .lsrAbsolute _ => 0x4E
  | .lsrAbsoluteX _ => 0x5E
  -- ROL, R172
  | .rolAccumulator => 0x2A
  | .rolZeroPage _ => 0x26
  | .rolZeroPageX _ => 0x36
  | .rolAbsolute _ => 0x2E
  | .rolAbsoluteX _ => 0x3E
  -- ROR, R173
  | .rorAccumulator => 0x6A
  | .rorZeroPage _ => 0x66
  | .rorZeroPageX _ => 0x76
  | .rorAbsolute _ => 0x6E
  | .rorAbsoluteX _ => 0x7E
  -- PHA, R180
  | .pha => 0x48
  -- PHP, R181
  | .php => 0x08
  -- PLA, R182
  | .pla => 0x68
  -- PLP, R183
  | .plp => 0x28
  -- CLC, R190
  | .clc => 0x18
  -- CLD, R191
  | .cld => 0xD8
  -- CLI, R192
  | .cli => 0x58
  -- CLV, R193
  | .clv => 0xB8
  -- SEC, R194
  | .sec => 0x38
  -- SED, R195
  | .sed => 0xF8
  -- SEI, R196
  | .sei => 0x78
  -- TAX, R200
  | .tax => 0xAA
  -- TAY, R201
  | .tay => 0xA8
  -- TXA, R202
  | .txa => 0x8A
  -- TYA, R203
  | .tya => 0x98
  -- TSX, R204
  | .tsx => 0xBA
  -- TXS, R205
  | .txs => 0x9A
  -- BRK, R210
  | .brk => 0x00
  -- NOP, R211
  | .nop => 0xEA
  -- RTI, R212
  | .rti => 0x40

/-- The operand bytes in memory order: a word's low byte first (R72). -/
def Operand.bytes : Operand → List Byte
  | .none => []
  | .byte v => [v]
  | .word v => [loByte v, hiByte v]

/-- The bytes of an instruction (R70). -/
def encode (i : Instr) : List Byte := i.opcode :: i.operand.bytes

end Sys2Proof
end

