-- ==== Sys2Proof/Machine/State.lean ====
section
/-! DEFINITION. The architectural state as plain data (10_state.md R20: "exactly this tuple; nothing else is state"), its value
after reset (R36), and the reasons a step can stop. -/

namespace Sys2Proof.Machine

/-- The two errors the block raises (60_exceptions.md R220). -/
inductive ErrorKind where
  /-- The fetched opcode byte is unmapped (R221). -/
  | invalidOpcode
  /-- ADC or SBC with `P.D = 1` under `DECIMAL_POLICY = Fault` (R222). -/
  | notImplementedInstruction
  deriving DecidableEq, Repr

/-- The record `e = (kind, byte, address)` of an error (R35, R221, R222). -/
structure ErrorRecord where
  kind : ErrorKind
  byte : Byte
  address : Word
  deriving DecidableEq, Repr

/-- Where the sequencer stands (R35). -/
inductive RunState where
  | idle
  | running
  | halted
  | faulted (e : ErrorRecord)
  deriving DecidableEq, Repr

/-- The eight flags of `P` (R25). -/
inductive Flag where
  | c | z | i | d | b | u | v | n
  deriving DecidableEq, Repr

/-- The registers that hold a byte, `P` apart (R21 to R23). -/
inductive Reg where
  | a | x | y | sp
  deriving DecidableEq, Repr

/-- The 65536-byte memory (20_memory.md R50) as its cells that differ from the reset content, addresses strictly rising
(`Memory.wf`, log entry 9). -/
abbrev Memory := List Host.Cell

/-- The state of the block (R20). -/
structure State where
  /-- `A`, R21. -/
  a : Byte
  /-- `X`, R22. -/
  x : Byte
  /-- `Y`, R22. -/
  y : Byte
  /-- `SP`, R23. -/
  sp : Byte
  /-- `PC`, R24. -/
  pc : Word
  /-- `P`, R25; its flags are read and written through Flags.lean. -/
  p : Byte
  /-- `mem`, R50. -/
  mem : Memory
  /-- `run`, R35. -/
  run : RunState
  deriving DecidableEq, Repr

/-- The state after reset (R36, 70_reset_and_hazards.md R250). -/
def State.reset : State where
  a := 0x00
  x := 0x00
  y := 0x00
  sp := 0xFF
  pc := 0x0000
  p := 0x00
  mem := []
  run := .idle

/-- The faults of the machine: NONE. The block's two errors are states, not stops outside the state: the spec says in full what an
error leaves (`run` becomes Faulted(e), all else unchanged, R224), so a step that raises one answers a next state
(log entry 5). No access, alignment, stack, arithmetic or privilege fault exists (R220). -/
inductive Fault : Type
  deriving DecidableEq, Repr

/-- The refusals of the machine. -/
inductive Refusal where
  /-- An instruction with no meaning yet, by its mnemonic: raised by no arm of `exec`. Safe. -/
  | notModelled (mnemonic : String)
  /-- Raised by the host operations of HostInterface.lean, reads among them, never by a step: the host has no move while the block is
  Running (R261, R61, I9). Safe. -/
  | hostActsWhileRunning
  /-- Raised by `hostStep` and `hostRun` of HostInterface.lean, never by a step: the host operations step() and run(n) exist only
  while the block is Running (R261). Safe. -/
  | hostStepsWhileStopped
  deriving DecidableEq, Repr

/-- What a meaning, or a step, answers. -/
abbrev Result := Host.Outcome State Fault Refusal

end Sys2Proof.Machine
end

