-- ==== Sys2Proof/Machine/Flags.lean ====
section
/-! DEFINITION. The status byte `P` and its flags (10_state.md R25 to R34), and every flag computation: SetZN (00_scope.md R11),
the adder (40_arithmetic.md R110), the comparator (R113), BIT (41_logical.md R123) and the shifts (46_shifts.md R170 to R173). -/

namespace Sys2Proof.Machine

/-- The bit of `P` a flag stands in (R25). -/
def flagBit : Flag → Nat
  | .c => 0
  | .z => 1
  | .i => 2
  | .d => 3
  | .b => 4
  | .u => 5
  | .v => 6
  | .n => 7

/-- The value of a flag in a status byte. -/
def getFlag (p : Byte) (f : Flag) : Bool := p.getLsbD (flagBit f)

/-- The byte whose only set bit is the flag's. -/
def flagMask (f : Flag) : Byte := 1 <<< flagBit f

/-- `P.f <- v`; the other seven bits stay (00_scope.md R9, R34). -/
def setFlag (p : Byte) (f : Flag) (v : Bool) : Byte := if v then p ||| flagMask f else p &&& ~~~flagMask f

/-- Bit 7 of a byte. -/
def bit7 (v : Byte) : Bool := v.getLsbD 7

/-- `SetZN(v)` (R11). -/
def setZN (p : Byte) (v : Byte) : Byte := setFlag (setFlag p .z (v == 0)) .n (bit7 v)

/-- `c ? 1 : 0` (R8). -/
def bitOf (c : Bool) : Byte := if c then 1 else 0

/-- `AddCore(a, m, cin) = (r, c, v)`: two chained 8-bit additions, `m + cin` and then `a + t1` (R110). -/
def addCore (a m : Byte) (cin : Bool) : Byte × Bool × Bool :=
  let t1 := m.toNat + (bitOf cin).toNat
  let c1 := decide (256 ≤ t1)
  let t2 := a.toNat + t1 % 256
  let c2 := decide (256 ≤ t2)
  let r := BitVec.ofNat 8 t2
  (r, c1 || c2, ((a ^^^ r) &&& (m ^^^ r) &&& 0x80) != 0)

/-- The flags ADC and SBC write from the adder's result (R111, R112). -/
def addFlags (p : Byte) (r : Byte) (c v : Bool) : Byte := setZN (setFlag (setFlag p .c c) .v v) r

/-- `Compare(reg, m)` (R113): what it does to `P`. -/
def compareFlags (p reg m : Byte) : Byte :=
  setFlag (setFlag (setFlag p .c (decide (m.toNat ≤ reg.toNat))) .z (reg == m)) .n (bit7 (reg - m))

/-- What BIT does to `P` (R123): Z from `A & M`, N and V from bits 7 and 6 of `M`. -/
def bitFlags (p a m : Byte) : Byte :=
  setFlag (setFlag (setFlag p .z ((a &&& m) == 0)) .n (bit7 m)) .v (m.getLsbD 6)

/-- ASL: the result and the outgoing carry (R170). -/
def aslOf (v : Byte) : Byte × Bool := (v <<< 1, bit7 v)

/-- LSR: the result and the outgoing carry (R171). -/
def lsrOf (v : Byte) : Byte × Bool := (v >>> 1, v.getLsbD 0)

/-- ROL: the result and the outgoing carry, from the incoming carry (R172). -/
def rolOf (cin : Bool) (v : Byte) : Byte × Bool := (v <<< 1 ||| bitOf cin, bit7 v)

/-- ROR: the result and the outgoing carry, from the incoming carry (R173). -/
def rorOf (cin : Bool) (v : Byte) : Byte × Bool := (v >>> 1 ||| bitOf cin <<< 7, v.getLsbD 0)

/-- The flags a shift or rotate writes from its result and outgoing carry (R170 to R173). -/
def shiftFlags (p : Byte) (r : Byte × Bool) : Byte := setZN (setFlag p .c r.2) r.1

end Sys2Proof.Machine
end

