-- ==== Sys2Proof/Machine/Ops.lean ====
section
/-! DEFINITION. The operations over memory and registers: the memory primitives (20_memory.md R50 to R53), the stack (R57 to R59),
the program counter's moves (30_encoding.md R93, R94), and the three ways out of the ordinary flow: raising an error
(60_exceptions.md R221 to R224), the halt (R226, 49_system.md R210) and the return from interrupt (R212). -/

namespace Sys2Proof.Machine

/-- What an address with no cell reads as: the reset content (R66). -/
def unlistedByte : Byte := 0x00

/-- The byte at an address. -/
def Memory.lookup : Memory → Nat → Byte
  | [], _ => unlistedByte
  | (k, v) :: m, a => if k = a then v else Memory.lookup m a

/-- Put a byte at an address, keeping the canonical form: a cell equal to the unlisted content is dropped. -/
def Memory.insert : Memory → Nat → Byte → Memory
  | [], a, v => if v = unlistedByte then [] else [(a, v)]
  | (k, w) :: m, a, v =>
    if a < k then
      if v = unlistedByte then (k, w) :: m else (a, v) :: (k, w) :: m
    else if a = k then
      if v = unlistedByte then m else (a, v) :: m
    else (k, w) :: Memory.insert m a v

/-- Canonical from an address up: keys rise strictly, stay below 65536, and no cell equals the unlisted content. -/
def Memory.wfFrom : Nat → Memory → Bool
  | _, [] => true
  | lo, (k, v) :: m => decide (lo ≤ k) && decide (k < 65536) && decide (v ≠ unlistedByte) && Memory.wfFrom (k + 1) m

/-- The canonical form of memory. -/
def Memory.wf (m : Memory) : Bool := Memory.wfFrom 0 m

/-- `zext_16(v)` (00_scope.md R7). -/
def zext16 (v : Byte) : Word := v.setWidth 16

/-- `sext_16(v)` (R7). -/
def sext16 (v : Byte) : Word := v.signExtend 16

/-- `MemRead(addr, 1)` (R51). -/
def State.read (s : State) (addr : Word) : Byte := Memory.lookup s.mem addr.toNat

/-- `MemWrite(addr, 1, v)` (R52). -/
def State.write (s : State) (addr : Word) (v : Byte) : State := { s with mem := Memory.insert s.mem addr.toNat v }

/-- `MemRead16(addr)`: low byte at `addr`, high byte at `add16(addr, 1)` (R53). -/
def State.read16 (s : State) (addr : Word) : Word := join (s.read (addr + 1)) (s.read addr)

/-- `A <- v`. -/
def State.setA (s : State) (v : Byte) : State := { s with a := v }

/-- `X <- v`. -/
def State.setX (s : State) (v : Byte) : State := { s with x := v }

/-- `Y <- v`. -/
def State.setY (s : State) (v : Byte) : State := { s with y := v }

/-- `SP <- v`. -/
def State.setSp (s : State) (v : Byte) : State := { s with sp := v }

/-- `PC <- v`. -/
def State.setPc (s : State) (v : Word) : State := { s with pc := v }

/-- `P <- v`. -/
def State.setP (s : State) (v : Byte) : State := { s with p := v }

/-- `run <- r`. -/
def State.setRun (s : State) (r : RunState) : State := { s with run := r }

/-- The register of a name (R21 to R23). -/
def State.reg (s : State) : Reg → Byte
  | .a => s.a
  | .x => s.x
  | .y => s.y
  | .sp => s.sp

/-- `r <- v`. -/
def State.setReg (s : State) : Reg → Byte → State
  | .a, v => s.setA v
  | .x, v => s.setX v
  | .y, v => s.setY v
  | .sp, v => s.setSp v

/-- The flag of a name. -/
def State.flag (s : State) (f : Flag) : Bool := getFlag s.p f

/-- `P.f <- v` (R9). -/
def State.setFlag (s : State) (f : Flag) (v : Bool) : State := s.setP (Machine.setFlag s.p f v)

/-- `r <- v; SetZN(v)`: what loads, transfers, pulls and the register increments do. -/
def State.setRegZN (s : State) (r : Reg) (v : Byte) : State := (s.setReg r v).setP (setZN s.p v)

/-- The base of the stack (00_scope.md R5, 10_state.md R23). -/
def stackBase : Word := 0x0100

/-- The address `0x0100 + SP` (R23). -/
def stackAddr (sp : Byte) : Word := stackBase + zext16 sp

/-- `Push(v)`: write at the stack address, then decrement SP modulo 256 (R57, R59). -/
def push (v : Byte) (s : State) : State := (s.write (stackAddr s.sp) v).setSp (s.sp - 1)

/-- The state after `Pull()`: SP incremented modulo 256 (R58, R59). -/
def pulled (s : State) : State := s.setSp (s.sp + 1)

/-- The byte `Pull()` returns: read at the stack address after the increment (R58). -/
def pullByte (s : State) : Byte := s.read (stackAddr (s.sp + 1))

/-- PC at dispatch: the address of the opcode byte plus one (R93, 00_scope.md R12). -/
def State.atDispatch (s : State) : State := s.setPc (s.pc + 1)

/-- The generic advance `PC <- add16(PC, length(mode) - 1)` (R94). -/
def State.advance (s : State) (m : Mode) : State := s.setPc (s.pc + BitVec.ofNat 16 (m.length - 1))

/-- An instruction that is not a jump/call, from the state at the start of its step: PC past the opcode byte, its own effect,
then the generic advance (R93, R94). -/
def ordinary (m : Mode) (body : State → State) (s : State) : Result := .next ((body s.atDispatch).advance m)

/-- A jump/call instruction: its own effect sets PC and no advance follows (R94). -/
def jumpCall (body : State → State) (s : State) : Result := .next (body s.atDispatch)

/-- Raise an error on opcode byte `b` at the address in PC, from the state at the start of the step: every component as before,
`run <- Faulted(e)` (R221, R222, R224). -/
def raiseError (kind : ErrorKind) (b : Byte) (s : State) : Result := .next (s.setRun (.faulted ⟨kind, b, s.pc⟩))

/-- The halt at the address in PC (R210, R226): `PC <- add16(S, 1)`, `P.B <- 1` if `BRK_HALT_B = Set`, `run <- Halted`. -/
def haltAt (hb : BrkHaltB) (s : State) : Result :=
  let s1 := s.setPc (s.pc + 1)
  let s2 := match hb with
    | .unchanged => s1
    | .set => s1.setFlag .b true
  .next (s2.setRun .halted)

/-- RTI's effect (R212): pull P raw, then PC, low byte first, with no increment of the address. -/
def returnFromInterrupt (s : State) : State :=
  let s1 := (pulled s).setP (pullByte s)
  let s2 := pulled s1
  (pulled s2).setPc (join (pullByte s2) (pullByte s1))

end Sys2Proof.Machine
end

