-- ==== Sys2Proof/Machine/Operands.lean ====
section
/-! DEFINITION. Operand resolution: the effective address of every addressing mode (30_encoding.md R80 to R92), from the operand
field the decoder read and the state. Resolution reads memory and registers and writes nothing. -/

namespace Sys2Proof.Machine

/-- `hi_addr(p)`: where the high byte of the zero-page pointer at `p` stands (R90). R90's two formulas differ only at 0xFF, where the
open parameter decides; they are written so that it is looked at only there. -/
def hiAddr (w : ZpPointerWrap) (p : Byte) : Word :=
  if p = 0xFF then
    match w with
    | .linear => 0x0100
    | .page => 0x0000
  else zext16 p + 1

/-- `ZpPtr16(p)` (R90). -/
def zpPtr16 (w : ZpPointerWrap) (p : Byte) (s : State) : Word := join (s.read (hiAddr w p)) (s.read (zext16 p))

/-- ZeroPage (R83). -/
def eaZeroPage (zp8 : Byte) : Word := zext16 zp8

/-- ZeroPageX: the index wraps in 8 bits (R84). -/
def eaZeroPageX (zp8 : Byte) (s : State) : Word := zext16 (zp8 + s.x)

/-- ZeroPageY: the index wraps in 8 bits (R85). -/
def eaZeroPageY (zp8 : Byte) (s : State) : Word := zext16 (zp8 + s.y)

/-- AbsoluteX: the index wraps in 16 bits (R87). Absolute (R86) is `addr16` itself. -/
def eaAbsoluteX (addr16 : Word) (s : State) : Word := addr16 + zext16 s.x

/-- AbsoluteY: the index wraps in 16 bits (R88). -/
def eaAbsoluteY (addr16 : Word) (s : State) : Word := addr16 + zext16 s.y

/-- Indirect: one more 16-bit load, with no wrap within the page (R89). -/
def eaIndirect (addr16 : Word) (s : State) : Word := s.read16 addr16

/-- IndirectX (R90). -/
def eaIndirectX (w : ZpPointerWrap) (zp8 : Byte) (s : State) : Word := zpPtr16 w (zp8 + s.x) s

/-- IndirectY: `Y` is added in 16 bits (R91, C6). -/
def eaIndirectY (w : ZpPointerWrap) (zp8 : Byte) (s : State) : Word := zpPtr16 w zp8 s + zext16 s.y

/-- `Resolve(mode)` (R93): the effective address, from the state at the start of the step. Implicit and Accumulator have none (R80,
R81). For Immediate and Relative it is PC at dispatch (R82, R92); their operand byte is the decoded field (log entry 6). -/
def resolve (w : ZpPointerWrap) (m : Mode) (o : Operand) (s : State) : Option Word :=
  match m, o with
  | .immediate, .byte _ | .relative, .byte _ => some (s.pc + 1)
  | .zeroPage, .byte z => some (eaZeroPage z)
  | .zeroPageX, .byte z => some (eaZeroPageX z s)
  | .zeroPageY, .byte z => some (eaZeroPageY z s)
  | .absolute, .word a => some a
  | .absoluteX, .word a => some (eaAbsoluteX a s)
  | .absoluteY, .word a => some (eaAbsoluteY a s)
  | .indirect, .word a => some (eaIndirect a s)
  | .indirectX, .byte z => some (eaIndirectX w z s)
  | .indirectY, .byte z => some (eaIndirectY w z s)
  | _, _ => none

/-- `EA` of an instruction in a state. -/
def effectiveAddress (i : Instr) (s : State) : Option Word := resolve Config.zpPointerWrap i.mode i.operand s

/-- `M`, the operand byte of an instruction that reads one: the decoded byte in Immediate and Relative modes (R92), `A` in Accumulator mode (R81),
`MemRead(EA, 1)` in the memory modes (00_scope.md R12). -/
def operandByte (i : Instr) (s : State) : Option Byte :=
  match i.mode, i.operand with
  | .immediate, .byte v | .relative, .byte v => some v
  | .accumulator, _ => some s.a
  | _, _ => (effectiveAddress i s).map s.read

end Sys2Proof.Machine
end

