-- ==== Sys2Proof/Machine/Arithmetic.lean ====
section
/-! DEFINITION. The arithmetic family: ADC, SBC, CMP, CPX, CPY (40_arithmetic.md). One
definition for each row of the opcode
table, over the shared operations. -/

namespace Sys2Proof.Machine

/-- ADC's effect on the state, with operand byte `m` (R111). -/
def addInto (m : Byte) (t : State) : State :=
  let r := addCore t.a m (t.flag .c)
  (t.setA r.1).setP (addFlags t.p r.1 r.2.1 r.2.2)

/-- `DecimalGuard(b)` before an instruction's effect (R110): with `P.D = 1` the policy decides. The state is that at the start of
the step, so the error leaves all of it but `run` (R222, R224). -/
def decimalGuard (pol : DecimalPolicy) (b : Byte) (effect : State → Result) (s : State) : Result :=
  if s.flag .d then
    match pol with
    | .fault => raiseError .notImplementedInstruction b s
    | .binary => effect s
  else effect s

/-- ADC (R111). -/
def adc (pol : DecimalPolicy) (b : Byte) (mode : Mode) (m : Byte) (s : State) : Result :=
  decimalGuard pol b (ordinary mode (addInto m)) s

/-- SBC: the adder on the complemented operand (R112). -/
def sbc (pol : DecimalPolicy) (b : Byte) (mode : Mode) (m : Byte) (s : State) : Result :=
  decimalGuard pol b (ordinary mode (addInto (~~~m))) s

/-- CMP, CPX, CPY: `Compare(reg, m)` (R113). -/
def compareReg (reg : Reg) (mode : Mode) (m : Byte) (s : State) : Result :=
  ordinary mode (fun t => t.setP (compareFlags t.p (t.reg reg) m)) s

/-- ADC Immediate, opcode 0x69 (R111, R82). -/
def execAdcImmediate (imm8 : Byte) (s : State) : Result :=
  adc Config.decimalPolicy 0x69 .immediate imm8 s

/-- ADC ZeroPage, opcode 0x65 (R111, R83). -/
def execAdcZeroPage (zp8 : Byte) (s : State) : Result :=
  adc Config.decimalPolicy 0x65 .zeroPage (s.read (eaZeroPage zp8)) s

/-- ADC ZeroPageX, opcode 0x75 (R111, R84). -/
def execAdcZeroPageX (zp8 : Byte) (s : State) : Result :=
  adc Config.decimalPolicy 0x75 .zeroPageX (s.read (eaZeroPageX zp8 s)) s

/-- ADC Absolute, opcode 0x6D (R111, R86). -/
def execAdcAbsolute (addr16 : Word) (s : State) : Result :=
  adc Config.decimalPolicy 0x6D .absolute (s.read addr16) s

/-- ADC AbsoluteX, opcode 0x7D (R111, R87). -/
def execAdcAbsoluteX (addr16 : Word) (s : State) : Result :=
  adc Config.decimalPolicy 0x7D .absoluteX (s.read (eaAbsoluteX addr16 s)) s

/-- ADC AbsoluteY, opcode 0x79 (R111, R88). -/
def execAdcAbsoluteY (addr16 : Word) (s : State) : Result :=
  adc Config.decimalPolicy 0x79 .absoluteY (s.read (eaAbsoluteY addr16 s)) s

/-- ADC IndirectX, opcode 0x61 (R111, R90). -/
def execAdcIndirectX (zp8 : Byte) (s : State) : Result :=
  adc Config.decimalPolicy 0x61 .indirectX (s.read (eaIndirectX Config.zpPointerWrap zp8 s)) s

/-- ADC IndirectY, opcode 0x71 (R111, R91). -/
def execAdcIndirectY (zp8 : Byte) (s : State) : Result :=
  adc Config.decimalPolicy 0x71 .indirectY (s.read (eaIndirectY Config.zpPointerWrap zp8 s)) s

/-- SBC Immediate, opcode 0xE9 (R112, R82). -/
def execSbcImmediate (imm8 : Byte) (s : State) : Result :=
  sbc Config.decimalPolicy 0xE9 .immediate imm8 s

/-- SBC ZeroPage, opcode 0xE5 (R112, R83). -/
def execSbcZeroPage (zp8 : Byte) (s : State) : Result :=
  sbc Config.decimalPolicy 0xE5 .zeroPage (s.read (eaZeroPage zp8)) s

/-- SBC ZeroPageX, opcode 0xF5 (R112, R84). -/
def execSbcZeroPageX (zp8 : Byte) (s : State) : Result :=
  sbc Config.decimalPolicy 0xF5 .zeroPageX (s.read (eaZeroPageX zp8 s)) s

/-- SBC Absolute, opcode 0xED (R112, R86). -/
def execSbcAbsolute (addr16 : Word) (s : State) : Result :=
  sbc Config.decimalPolicy 0xED .absolute (s.read addr16) s

/-- SBC AbsoluteX, opcode 0xFD (R112, R87). -/
def execSbcAbsoluteX (addr16 : Word) (s : State) : Result :=
  sbc Config.decimalPolicy 0xFD .absoluteX (s.read (eaAbsoluteX addr16 s)) s

/-- SBC AbsoluteY, opcode 0xF9 (R112, R88). -/
def execSbcAbsoluteY (addr16 : Word) (s : State) : Result :=
  sbc Config.decimalPolicy 0xF9 .absoluteY (s.read (eaAbsoluteY addr16 s)) s

/-- SBC IndirectX, opcode 0xE1 (R112, R90). -/
def execSbcIndirectX (zp8 : Byte) (s : State) : Result :=
  sbc Config.decimalPolicy 0xE1 .indirectX (s.read (eaIndirectX Config.zpPointerWrap zp8 s)) s

/-- SBC IndirectY, opcode 0xF1 (R112, R91). -/
def execSbcIndirectY (zp8 : Byte) (s : State) : Result :=
  sbc Config.decimalPolicy 0xF1 .indirectY (s.read (eaIndirectY Config.zpPointerWrap zp8 s)) s

/-- CMP Immediate, opcode 0xC9 (R114, R82). -/
def execCmpImmediate (imm8 : Byte) (s : State) : Result := compareReg .a .immediate imm8 s

/-- CMP ZeroPage, opcode 0xC5 (R114, R83). -/
def execCmpZeroPage (zp8 : Byte) (s : State) : Result :=
  compareReg .a .zeroPage (s.read (eaZeroPage zp8)) s

/-- CMP ZeroPageX, opcode 0xD5 (R114, R84). -/
def execCmpZeroPageX (zp8 : Byte) (s : State) : Result :=
  compareReg .a .zeroPageX (s.read (eaZeroPageX zp8 s)) s

/-- CMP Absolute, opcode 0xCD (R114, R86). -/
def execCmpAbsolute (addr16 : Word) (s : State) : Result :=
  compareReg .a .absolute (s.read addr16) s

/-- CMP AbsoluteX, opcode 0xDD (R114, R87). -/
def execCmpAbsoluteX (addr16 : Word) (s : State) : Result :=
  compareReg .a .absoluteX (s.read (eaAbsoluteX addr16 s)) s

/-- CMP AbsoluteY, opcode 0xD9 (R114, R88). -/
def execCmpAbsoluteY (addr16 : Word) (s : State) : Result :=
  compareReg .a .absoluteY (s.read (eaAbsoluteY addr16 s)) s

/-- CMP IndirectX, opcode 0xC1 (R114, R90). -/
def execCmpIndirectX (zp8 : Byte) (s : State) : Result :=
  compareReg .a .indirectX (s.read (eaIndirectX Config.zpPointerWrap zp8 s)) s

/-- CMP IndirectY, opcode 0xD1 (R114, R91). -/
def execCmpIndirectY (zp8 : Byte) (s : State) : Result :=
  compareReg .a .indirectY (s.read (eaIndirectY Config.zpPointerWrap zp8 s)) s

/-- CPX Immediate, opcode 0xE0 (R115, R82). -/
def execCpxImmediate (imm8 : Byte) (s : State) : Result := compareReg .x .immediate imm8 s

/-- CPX ZeroPage, opcode 0xE4 (R115, R83). -/
def execCpxZeroPage (zp8 : Byte) (s : State) : Result :=
  compareReg .x .zeroPage (s.read (eaZeroPage zp8)) s

/-- CPX Absolute, opcode 0xEC (R115, R86). -/
def execCpxAbsolute (addr16 : Word) (s : State) : Result :=
  compareReg .x .absolute (s.read addr16) s

/-- CPY Immediate, opcode 0xC0 (R116, R82). -/
def execCpyImmediate (imm8 : Byte) (s : State) : Result := compareReg .y .immediate imm8 s

/-- CPY ZeroPage, opcode 0xC4 (R116, R83). -/
def execCpyZeroPage (zp8 : Byte) (s : State) : Result :=
  compareReg .y .zeroPage (s.read (eaZeroPage zp8)) s

/-- CPY Absolute, opcode 0xCC (R116, R86). -/
def execCpyAbsolute (addr16 : Word) (s : State) : Result :=
  compareReg .y .absolute (s.read addr16) s

end Sys2Proof.Machine
end

