-- ==== Sys2Proof/Machine/Branches.lean ====
section
/-! DEFINITION. The branches (43_branches.md R140 to R148). One
definition for each row of the opcode
table, over the shared operations. -/

namespace Sys2Proof.Machine

/-- `Branch(P.f == want)` (R140): the displacement is added to PC at dispatch, and the generic advance of one byte follows. -/
def branch (f : Flag) (want : Bool) (disp8 : Byte) (s : State) : Result :=
  ordinary .relative (fun t => if t.flag f = want then t.setPc (t.pc + sext16 disp8) else t) s

/-- BCC Relative, opcode 0x90 (R141, R92). -/
def execBcc (disp8 : Byte) (s : State) : Result := branch .c false disp8 s

/-- BCS Relative, opcode 0xB0 (R142, R92). -/
def execBcs (disp8 : Byte) (s : State) : Result := branch .c true disp8 s

/-- BEQ Relative, opcode 0xF0 (R143, R92). -/
def execBeq (disp8 : Byte) (s : State) : Result := branch .z true disp8 s

/-- BMI Relative, opcode 0x30 (R144, R92). -/
def execBmi (disp8 : Byte) (s : State) : Result := branch .n true disp8 s

/-- BNE Relative, opcode 0xD0 (R145, R92). -/
def execBne (disp8 : Byte) (s : State) : Result := branch .z false disp8 s

/-- BPL Relative, opcode 0x10 (R146, R92). -/
def execBpl (disp8 : Byte) (s : State) : Result := branch .n false disp8 s

/-- BVC Relative, opcode 0x50 (R147, R92). -/
def execBvc (disp8 : Byte) (s : State) : Result := branch .v false disp8 s

/-- BVS Relative, opcode 0x70 (R148, R92). -/
def execBvs (disp8 : Byte) (s : State) : Result := branch .v true disp8 s

end Sys2Proof.Machine
end

