-- ==== Sys2Proof/Machine/IncDec.lean ====
section
/-! DEFINITION. The increment/decrement family: INC, DEC, INX, INY, DEX, DEY (44_inc_dec.md). One
definition for each row of the opcode
table, over the shared operations. -/

namespace Sys2Proof.Machine

/-- INC, DEC: one read, then one write to the same address; Z and N from the result (R150, R151, 20_memory.md R64). -/
def modify (f : Byte → Byte) (mode : Mode) (ea : Word) (s : State) : Result :=
  ordinary mode (fun t => (t.write ea (f (t.read ea))).setP (setZN t.p (f (t.read ea)))) s

/-- INX, INY, DEX, DEY (R152 to R155). -/
def stepReg (r : Reg) (f : Byte → Byte) (s : State) : Result :=
  ordinary .implicit (fun t => t.setRegZN r (f (t.reg r))) s

/-- INC ZeroPage, opcode 0xE6 (R150, R83). -/
def execIncZeroPage (zp8 : Byte) (s : State) : Result := modify (· + 1) .zeroPage (eaZeroPage zp8) s

/-- INC ZeroPageX, opcode 0xF6 (R150, R84). -/
def execIncZeroPageX (zp8 : Byte) (s : State) : Result :=
  modify (· + 1) .zeroPageX (eaZeroPageX zp8 s) s

/-- INC Absolute, opcode 0xEE (R150, R86). -/
def execIncAbsolute (addr16 : Word) (s : State) : Result := modify (· + 1) .absolute addr16 s

/-- INC AbsoluteX, opcode 0xFE (R150, R87). -/
def execIncAbsoluteX (addr16 : Word) (s : State) : Result :=
  modify (· + 1) .absoluteX (eaAbsoluteX addr16 s) s

/-- DEC ZeroPage, opcode 0xC6 (R151, R83). -/
def execDecZeroPage (zp8 : Byte) (s : State) : Result := modify (· - 1) .zeroPage (eaZeroPage zp8) s

/-- DEC ZeroPageX, opcode 0xD6 (R151, R84). -/
def execDecZeroPageX (zp8 : Byte) (s : State) : Result :=
  modify (· - 1) .zeroPageX (eaZeroPageX zp8 s) s

/-- DEC Absolute, opcode 0xCE (R151, R86). -/
def execDecAbsolute (addr16 : Word) (s : State) : Result := modify (· - 1) .absolute addr16 s

/-- DEC AbsoluteX, opcode 0xDE (R151, R87). -/
def execDecAbsoluteX (addr16 : Word) (s : State) : Result :=
  modify (· - 1) .absoluteX (eaAbsoluteX addr16 s) s

/-- INX, opcode 0xE8 (R152). -/
def execInx (s : State) : Result := stepReg .x (· + 1) s

/-- INY, opcode 0xC8 (R153). -/
def execIny (s : State) : Result := stepReg .y (· + 1) s

/-- DEX, opcode 0xCA (R154). -/
def execDex (s : State) : Result := stepReg .x (· - 1) s

/-- DEY, opcode 0x88 (R155). -/
def execDey (s : State) : Result := stepReg .y (· - 1) s

end Sys2Proof.Machine
end

