-- ==== Sys2Proof/Machine/JumpsCalls.lean ====
section
/-! DEFINITION. The jumps and calls: JMP, JSR, RTS (45_jumps_calls.md). They get no generic advance (R94). One
definition for each row of the opcode
table, over the shared operations. -/

namespace Sys2Proof.Machine

/-- JMP: `PC <- EA` (R160). -/
def jump (ea : Word) (s : State) : Result := jumpCall (fun t => t.setPc ea) s

/-- JSR (R161): push the address of its own last byte, PC at dispatch plus one, high byte first; `PC <- EA`. -/
def call (ea : Word) (s : State) : Result :=
  jumpCall (fun t => (push (loByte (t.pc + 1)) (push (hiByte (t.pc + 1)) t)).setPc ea) s

/-- RTS's effect (R162): pull the low byte, pull the high byte, `PC <- add16(hi:lo, 1)`. -/
def returnFromSubroutine (t : State) : State :=
  (pulled (pulled t)).setPc (join (pullByte (pulled t)) (pullByte t) + 1)

/-- JMP Absolute, opcode 0x4C (R160, R86). -/
def execJmpAbsolute (addr16 : Word) (s : State) : Result := jump addr16 s

/-- JMP Indirect, opcode 0x6C (R160, R89). -/
def execJmpIndirect (addr16 : Word) (s : State) : Result := jump (eaIndirect addr16 s) s

/-- JSR Absolute, opcode 0x20 (R161, R86). -/
def execJsr (addr16 : Word) (s : State) : Result := call addr16 s

/-- RTS, opcode 0x60 (R162). -/
def execRts (s : State) : Result := jumpCall returnFromSubroutine s

end Sys2Proof.Machine
end

