-- ==== Sys2Proof/Machine/LoadStore.lean ====
section
/-! DEFINITION. The load/store family: LDA, LDX, LDY, STA, STX, STY (42_load_store.md). One
definition for each row of the opcode
table, over the shared operations. -/

namespace Sys2Proof.Machine

/-- LDA, LDX, LDY: `r <- M; SetZN(M)` (R130 to R132). -/
def load (r : Reg) (mode : Mode) (m : Byte) (s : State) : Result :=
  ordinary mode (fun t => t.setRegZN r m) s

/-- STA, STX, STY: `MemWrite(EA, 1, r)`, no flag (R133 to R135). -/
def store (r : Reg) (mode : Mode) (ea : Word) (s : State) : Result :=
  ordinary mode (fun t => t.write ea (t.reg r)) s

/-- LDA Immediate, opcode 0xA9 (R130, R82). -/
def execLdaImmediate (imm8 : Byte) (s : State) : Result := load .a .immediate imm8 s

/-- LDA ZeroPage, opcode 0xA5 (R130, R83). -/
def execLdaZeroPage (zp8 : Byte) (s : State) : Result :=
  load .a .zeroPage (s.read (eaZeroPage zp8)) s

/-- LDA ZeroPageX, opcode 0xB5 (R130, R84). -/
def execLdaZeroPageX (zp8 : Byte) (s : State) : Result :=
  load .a .zeroPageX (s.read (eaZeroPageX zp8 s)) s

/-- LDA Absolute, opcode 0xAD (R130, R86). -/
def execLdaAbsolute (addr16 : Word) (s : State) : Result := load .a .absolute (s.read addr16) s

/-- LDA AbsoluteX, opcode 0xBD (R130, R87). -/
def execLdaAbsoluteX (addr16 : Word) (s : State) : Result :=
  load .a .absoluteX (s.read (eaAbsoluteX addr16 s)) s

/-- LDA AbsoluteY, opcode 0xB9 (R130, R88). -/
def execLdaAbsoluteY (addr16 : Word) (s : State) : Result :=
  load .a .absoluteY (s.read (eaAbsoluteY addr16 s)) s

/-- LDA IndirectX, opcode 0xA1 (R130, R90). -/
def execLdaIndirectX (zp8 : Byte) (s : State) : Result :=
  load .a .indirectX (s.read (eaIndirectX Config.zpPointerWrap zp8 s)) s

/-- LDA IndirectY, opcode 0xB1 (R130, R91). -/
def execLdaIndirectY (zp8 : Byte) (s : State) : Result :=
  load .a .indirectY (s.read (eaIndirectY Config.zpPointerWrap zp8 s)) s

/-- LDX Immediate, opcode 0xA2 (R131, R82). -/
def execLdxImmediate (imm8 : Byte) (s : State) : Result := load .x .immediate imm8 s

/-- LDX ZeroPage, opcode 0xA6 (R131, R83). -/
def execLdxZeroPage (zp8 : Byte) (s : State) : Result :=
  load .x .zeroPage (s.read (eaZeroPage zp8)) s

/-- LDX ZeroPageY, opcode 0xB6 (R131, R85). -/
def execLdxZeroPageY (zp8 : Byte) (s : State) : Result :=
  load .x .zeroPageY (s.read (eaZeroPageY zp8 s)) s

/-- LDX Absolute, opcode 0xAE (R131, R86). -/
def execLdxAbsolute (addr16 : Word) (s : State) : Result := load .x .absolute (s.read addr16) s

/-- LDX AbsoluteY, opcode 0xBE (R131, R88). -/
def execLdxAbsoluteY (addr16 : Word) (s : State) : Result :=
  load .x .absoluteY (s.read (eaAbsoluteY addr16 s)) s

/-- LDY Immediate, opcode 0xA0 (R132, R82). -/
def execLdyImmediate (imm8 : Byte) (s : State) : Result := load .y .immediate imm8 s

/-- LDY ZeroPage, opcode 0xA4 (R132, R83). -/
def execLdyZeroPage (zp8 : Byte) (s : State) : Result :=
  load .y .zeroPage (s.read (eaZeroPage zp8)) s

/-- LDY ZeroPageX, opcode 0xB4 (R132, R84). -/
def execLdyZeroPageX (zp8 : Byte) (s : State) : Result :=
  load .y .zeroPageX (s.read (eaZeroPageX zp8 s)) s

/-- LDY Absolute, opcode 0xAC (R132, R86). -/
def execLdyAbsolute (addr16 : Word) (s : State) : Result := load .y .absolute (s.read addr16) s

/-- LDY AbsoluteX, opcode 0xBC (R132, R87). -/
def execLdyAbsoluteX (addr16 : Word) (s : State) : Result :=
  load .y .absoluteX (s.read (eaAbsoluteX addr16 s)) s

/-- STA ZeroPage, opcode 0x85 (R133, R83). -/
def execStaZeroPage (zp8 : Byte) (s : State) : Result := store .a .zeroPage (eaZeroPage zp8) s

/-- STA ZeroPageX, opcode 0x95 (R133, R84). -/
def execStaZeroPageX (zp8 : Byte) (s : State) : Result := store .a .zeroPageX (eaZeroPageX zp8 s) s

/-- STA Absolute, opcode 0x8D (R133, R86). -/
def execStaAbsolute (addr16 : Word) (s : State) : Result := store .a .absolute addr16 s

/-- STA AbsoluteX, opcode 0x9D (R133, R87). -/
def execStaAbsoluteX (addr16 : Word) (s : State) : Result :=
  store .a .absoluteX (eaAbsoluteX addr16 s) s

/-- STA AbsoluteY, opcode 0x99 (R133, R88). -/
def execStaAbsoluteY (addr16 : Word) (s : State) : Result :=
  store .a .absoluteY (eaAbsoluteY addr16 s) s

/-- STA IndirectX, opcode 0x81 (R133, R90). -/
def execStaIndirectX (zp8 : Byte) (s : State) : Result :=
  store .a .indirectX (eaIndirectX Config.zpPointerWrap zp8 s) s

/-- STA IndirectY, opcode 0x91 (R133, R91). -/
def execStaIndirectY (zp8 : Byte) (s : State) : Result :=
  store .a .indirectY (eaIndirectY Config.zpPointerWrap zp8 s) s

/-- STX ZeroPage, opcode 0x86 (R134, R83). -/
def execStxZeroPage (zp8 : Byte) (s : State) : Result := store .x .zeroPage (eaZeroPage zp8) s

/-- STX ZeroPageY, opcode 0x96 (R134, R85). -/
def execStxZeroPageY (zp8 : Byte) (s : State) : Result := store .x .zeroPageY (eaZeroPageY zp8 s) s

/-- STX Absolute, opcode 0x8E (R134, R86). -/
def execStxAbsolute (addr16 : Word) (s : State) : Result := store .x .absolute addr16 s

/-- STY ZeroPage, opcode 0x84 (R135, R83). -/
def execStyZeroPage (zp8 : Byte) (s : State) : Result := store .y .zeroPage (eaZeroPage zp8) s

/-- STY ZeroPageX, opcode 0x94 (R135, R84). -/
def execStyZeroPageX (zp8 : Byte) (s : State) : Result := store .y .zeroPageX (eaZeroPageX zp8 s) s

/-- STY Absolute, opcode 0x8C (R135, R86). -/
def execStyAbsolute (addr16 : Word) (s : State) : Result := store .y .absolute addr16 s

end Sys2Proof.Machine
end

