-- ==== Sys2Proof/Machine/Logical.lean ====
section
/-! DEFINITION. The logical family: AND, ORA, EOR, BIT (41_logical.md). One
definition for each row of the opcode
table, over the shared operations. -/

namespace Sys2Proof.Machine

/-- AND, ORA, EOR: `r = A op M; A <- r; SetZN(r)` (R120 to R122). -/
def logic (f : Byte → Byte → Byte) (mode : Mode) (m : Byte) (s : State) : Result :=
  ordinary mode (fun t => t.setRegZN .a (f t.a m)) s

/-- BIT (R123): flags only. -/
def bitTest (mode : Mode) (m : Byte) (s : State) : Result :=
  ordinary mode (fun t => t.setP (bitFlags t.p t.a m)) s

/-- AND Immediate, opcode 0x29 (R120, R82). -/
def execAndImmediate (imm8 : Byte) (s : State) : Result := logic (· &&& ·) .immediate imm8 s

/-- AND ZeroPage, opcode 0x25 (R120, R83). -/
def execAndZeroPage (zp8 : Byte) (s : State) : Result :=
  logic (· &&& ·) .zeroPage (s.read (eaZeroPage zp8)) s

/-- AND ZeroPageX, opcode 0x35 (R120, R84). -/
def execAndZeroPageX (zp8 : Byte) (s : State) : Result :=
  logic (· &&& ·) .zeroPageX (s.read (eaZeroPageX zp8 s)) s

/-- AND Absolute, opcode 0x2D (R120, R86). -/
def execAndAbsolute (addr16 : Word) (s : State) : Result :=
  logic (· &&& ·) .absolute (s.read addr16) s

/-- AND AbsoluteX, opcode 0x3D (R120, R87). -/
def execAndAbsoluteX (addr16 : Word) (s : State) : Result :=
  logic (· &&& ·) .absoluteX (s.read (eaAbsoluteX addr16 s)) s

/-- AND AbsoluteY, opcode 0x39 (R120, R88). -/
def execAndAbsoluteY (addr16 : Word) (s : State) : Result :=
  logic (· &&& ·) .absoluteY (s.read (eaAbsoluteY addr16 s)) s

/-- AND IndirectX, opcode 0x21 (R120, R90). -/
def execAndIndirectX (zp8 : Byte) (s : State) : Result :=
  logic (· &&& ·) .indirectX (s.read (eaIndirectX Config.zpPointerWrap zp8 s)) s

/-- AND IndirectY, opcode 0x31 (R120, R91). -/
def execAndIndirectY (zp8 : Byte) (s : State) : Result :=
  logic (· &&& ·) .indirectY (s.read (eaIndirectY Config.zpPointerWrap zp8 s)) s

/-- ORA Immediate, opcode 0x09 (R121, R82). -/
def execOraImmediate (imm8 : Byte) (s : State) : Result := logic (· ||| ·) .immediate imm8 s

/-- ORA ZeroPage, opcode 0x05 (R121, R83). -/
def execOraZeroPage (zp8 : Byte) (s : State) : Result :=
  logic (· ||| ·) .zeroPage (s.read (eaZeroPage zp8)) s

/-- ORA ZeroPageX, opcode 0x15 (R121, R84). -/
def execOraZeroPageX (zp8 : Byte) (s : State) : Result :=
  logic (· ||| ·) .zeroPageX (s.read (eaZeroPageX zp8 s)) s

/-- ORA Absolute, opcode 0x0D (R121, R86). -/
def execOraAbsolute (addr16 : Word) (s : State) : Result :=
  logic (· ||| ·) .absolute (s.read addr16) s

/-- ORA AbsoluteX, opcode 0x1D (R121, R87). -/
def execOraAbsoluteX (addr16 : Word) (s : State) : Result :=
  logic (· ||| ·) .absoluteX (s.read (eaAbsoluteX addr16 s)) s

/-- ORA AbsoluteY, opcode 0x19 (R121, R88). -/
def execOraAbsoluteY (addr16 : Word) (s : State) : Result :=
  logic (· ||| ·) .absoluteY (s.read (eaAbsoluteY addr16 s)) s

/-- ORA IndirectX, opcode 0x01 (R121, R90). -/
def execOraIndirectX (zp8 : Byte) (s : State) : Result :=
  logic (· ||| ·) .indirectX (s.read (eaIndirectX Config.zpPointerWrap zp8 s)) s

/-- ORA IndirectY, opcode 0x11 (R121, R91). -/
def execOraIndirectY (zp8 : Byte) (s : State) : Result :=
  logic (· ||| ·) .indirectY (s.read (eaIndirectY Config.zpPointerWrap zp8 s)) s

/-- EOR Immediate, opcode 0x49 (R122, R82). -/
def execEorImmediate (imm8 : Byte) (s : State) : Result := logic (· ^^^ ·) .immediate imm8 s

/-- EOR ZeroPage, opcode 0x45 (R122, R83). -/
def execEorZeroPage (zp8 : Byte) (s : State) : Result :=
  logic (· ^^^ ·) .zeroPage (s.read (eaZeroPage zp8)) s

/-- EOR ZeroPageX, opcode 0x55 (R122, R84). -/
def execEorZeroPageX (zp8 : Byte) (s : State) : Result :=
  logic (· ^^^ ·) .zeroPageX (s.read (eaZeroPageX zp8 s)) s

/-- EOR Absolute, opcode 0x4D (R122, R86). -/
def execEorAbsolute (addr16 : Word) (s : State) : Result :=
  logic (· ^^^ ·) .absolute (s.read addr16) s

/-- EOR AbsoluteX, opcode 0x5D (R122, R87). -/
def execEorAbsoluteX (addr16 : Word) (s : State) : Result :=
  logic (· ^^^ ·) .absoluteX (s.read (eaAbsoluteX addr16 s)) s

/-- EOR AbsoluteY, opcode 0x59 (R122, R88). -/
def execEorAbsoluteY (addr16 : Word) (s : State) : Result :=
  logic (· ^^^ ·) .absoluteY (s.read (eaAbsoluteY addr16 s)) s

/-- EOR IndirectX, opcode 0x41 (R122, R90). -/
def execEorIndirectX (zp8 : Byte) (s : State) : Result :=
  logic (· ^^^ ·) .indirectX (s.read (eaIndirectX Config.zpPointerWrap zp8 s)) s

/-- EOR IndirectY, opcode 0x51 (R122, R91). -/
def execEorIndirectY (zp8 : Byte) (s : State) : Result :=
  logic (· ^^^ ·) .indirectY (s.read (eaIndirectY Config.zpPointerWrap zp8 s)) s

/-- BIT ZeroPage, opcode 0x24 (R123, R83). -/
def execBitZeroPage (zp8 : Byte) (s : State) : Result :=
  bitTest .zeroPage (s.read (eaZeroPage zp8)) s

/-- BIT Absolute, opcode 0x2C (R123, R86). -/
def execBitAbsolute (addr16 : Word) (s : State) : Result := bitTest .absolute (s.read addr16) s

end Sys2Proof.Machine
end

