-- ==== Sys2Proof/Machine/Shifts.lean ====
section
/-! DEFINITION. The shifts and rotates: ASL, LSR, ROL, ROR (46_shifts.md). One
definition for each row of the opcode
table, over the shared operations. -/

namespace Sys2Proof.Machine

/-- A shift or rotate of the accumulator (R170 to R173, Accumulator mode). -/
def shiftA (f : Byte → Byte × Bool) (s : State) : Result :=
  ordinary .accumulator (fun t => (t.setA (f t.a).1).setP (shiftFlags t.p (f t.a))) s

/-- A shift or rotate of the byte at `ea`: one read, then one write (R170 to R173, 20_memory.md R64). -/
def shiftMem (f : Byte → Byte × Bool) (mode : Mode) (ea : Word) (s : State) : Result :=
  ordinary mode (fun t => (t.write ea (f (t.read ea)).1).setP (shiftFlags t.p (f (t.read ea)))) s

/-- ASL Accumulator, opcode 0x0A (R170, R81). -/
def execAslAccumulator (s : State) : Result := shiftA aslOf s

/-- ASL ZeroPage, opcode 0x06 (R170, R83). -/
def execAslZeroPage (zp8 : Byte) (s : State) : Result := shiftMem aslOf .zeroPage (eaZeroPage zp8) s

/-- ASL ZeroPageX, opcode 0x16 (R170, R84). -/
def execAslZeroPageX (zp8 : Byte) (s : State) : Result :=
  shiftMem aslOf .zeroPageX (eaZeroPageX zp8 s) s

/-- ASL Absolute, opcode 0x0E (R170, R86). -/
def execAslAbsolute (addr16 : Word) (s : State) : Result := shiftMem aslOf .absolute addr16 s

/-- ASL AbsoluteX, opcode 0x1E (R170, R87). -/
def execAslAbsoluteX (addr16 : Word) (s : State) : Result :=
  shiftMem aslOf .absoluteX (eaAbsoluteX addr16 s) s

/-- LSR Accumulator, opcode 0x4A (R171, R81). -/
def execLsrAccumulator (s : State) : Result := shiftA lsrOf s

/-- LSR ZeroPage, opcode 0x46 (R171, R83). -/
def execLsrZeroPage (zp8 : Byte) (s : State) : Result := shiftMem lsrOf .zeroPage (eaZeroPage zp8) s

/-- LSR ZeroPageX, opcode 0x56 (R171, R84). -/
def execLsrZeroPageX (zp8 : Byte) (s : State) : Result :=
  shiftMem lsrOf .zeroPageX (eaZeroPageX zp8 s) s

/-- LSR Absolute, opcode 0x4E (R171, R86). -/
def execLsrAbsolute (addr16 : Word) (s : State) : Result := shiftMem lsrOf .absolute addr16 s

/-- LSR AbsoluteX, opcode 0x5E (R171, R87). -/
def execLsrAbsoluteX (addr16 : Word) (s : State) : Result :=
  shiftMem lsrOf .absoluteX (eaAbsoluteX addr16 s) s

/-- ROL Accumulator, opcode 0x2A (R172, R81). -/
def execRolAccumulator (s : State) : Result := shiftA (rolOf (s.flag .c)) s

/-- ROL ZeroPage, opcode 0x26 (R172, R83). -/
def execRolZeroPage (zp8 : Byte) (s : State) : Result :=
  shiftMem (rolOf (s.flag .c)) .zeroPage (eaZeroPage zp8) s

/-- ROL ZeroPageX, opcode 0x36 (R172, R84). -/
def execRolZeroPageX (zp8 : Byte) (s : State) : Result :=
  shiftMem (rolOf (s.flag .c)) .zeroPageX (eaZeroPageX zp8 s) s

/-- ROL Absolute, opcode 0x2E (R172, R86). -/
def execRolAbsolute (addr16 : Word) (s : State) : Result :=
  shiftMem (rolOf (s.flag .c)) .absolute addr16 s

/-- ROL AbsoluteX, opcode 0x3E (R172, R87). -/
def execRolAbsoluteX (addr16 : Word) (s : State) : Result :=
  shiftMem (rolOf (s.flag .c)) .absoluteX (eaAbsoluteX addr16 s) s

/-- ROR Accumulator, opcode 0x6A (R173, R81). -/
def execRorAccumulator (s : State) : Result := shiftA (rorOf (s.flag .c)) s

/-- ROR ZeroPage, opcode 0x66 (R173, R83). -/
def execRorZeroPage (zp8 : Byte) (s : State) : Result :=
  shiftMem (rorOf (s.flag .c)) .zeroPage (eaZeroPage zp8) s

/-- ROR ZeroPageX, opcode 0x76 (R173, R84). -/
def execRorZeroPageX (zp8 : Byte) (s : State) : Result :=
  shiftMem (rorOf (s.flag .c)) .zeroPageX (eaZeroPageX zp8 s) s

/-- ROR Absolute, opcode 0x6E (R173, R86). -/
def execRorAbsolute (addr16 : Word) (s : State) : Result :=
  shiftMem (rorOf (s.flag .c)) .absolute addr16 s

/-- ROR AbsoluteX, opcode 0x7E (R173, R87). -/
def execRorAbsoluteX (addr16 : Word) (s : State) : Result :=
  shiftMem (rorOf (s.flag .c)) .absoluteX (eaAbsoluteX addr16 s) s

end Sys2Proof.Machine
end

