-- ==== Sys2Proof/Machine/Stack.lean ====
section
/-! DEFINITION. The stack family: PHA, PHP, PLA, PLP (47_stack.md), over `push`, `pulled` and `pullByte`. One
definition for each row of the opcode
table, over the shared operations. -/

namespace Sys2Proof.Machine

/-- PHA, opcode 0x48 (R180). -/
def execPha (s : State) : Result := ordinary .implicit (fun t => push t.a t) s

/-- PHP, opcode 0x08 (R181). -/
def execPhp (s : State) : Result := ordinary .implicit (fun t => push t.p t) s

/-- PLA, opcode 0x68 (R182). -/
def execPla (s : State) : Result :=
  ordinary .implicit (fun t => (pulled t).setRegZN .a (pullByte t)) s

/-- PLP, opcode 0x28 (R183). -/
def execPlp (s : State) : Result := ordinary .implicit (fun t => (pulled t).setP (pullByte t)) s

end Sys2Proof.Machine
end

