-- ==== Sys2Proof/Machine/StatusFlags.lean ====
section
/-! DEFINITION. The status-flag changes: CLC, CLD, CLI, CLV, SEC, SED, SEI (48_flags_transfers.md R190 to R196). One
definition for each row of the opcode
table, over the shared operations. -/

namespace Sys2Proof.Machine

/-- Write one flag; the other seven stay (R190 to R196). -/
def writeFlag (f : Flag) (v : Bool) (s : State) : Result := ordinary .implicit (fun t => t.setFlag f v) s

/-- CLC, opcode 0x18 (R190). -/
def execClc (s : State) : Result := writeFlag .c false s

/-- CLD, opcode 0xD8 (R191). -/
def execCld (s : State) : Result := writeFlag .d false s

/-- CLI, opcode 0x58 (R192). -/
def execCli (s : State) : Result := writeFlag .i false s

/-- CLV, opcode 0xB8 (R193). -/
def execClv (s : State) : Result := writeFlag .v false s

/-- SEC, opcode 0x38 (R194). -/
def execSec (s : State) : Result := writeFlag .c true s

/-- SED, opcode 0xF8 (R195). -/
def execSed (s : State) : Result := writeFlag .d true s

/-- SEI, opcode 0x78 (R196). -/
def execSei (s : State) : Result := writeFlag .i true s

end Sys2Proof.Machine
end

