-- ==== Sys2Proof/Machine/System.lean ====
section
/-! DEFINITION. The system functions: BRK, NOP, RTI (49_system.md), over `haltAt` and `returnFromInterrupt`. One
definition for each row of the opcode
table, over the shared operations. -/

namespace Sys2Proof.Machine

/-- BRK, opcode 0x00 (R210). -/
def execBrk (s : State) : Result := haltAt Config.brkHaltB s

/-- NOP, opcode 0xEA (R211). -/
def execNop (s : State) : Result := ordinary .implicit id s

/-- RTI, opcode 0x40 (R212). -/
def execRti (s : State) : Result := ordinary .implicit returnFromInterrupt s

end Sys2Proof.Machine
end

