-- ==== Sys2Proof/Machine/Transfers.lean ====
section
/-! DEFINITION. The register transfers: TAX, TAY, TXA, TYA, TSX, TXS (48_flags_transfers.md R200 to R205). One
definition for each row of the opcode
table, over the shared operations. -/

namespace Sys2Proof.Machine

/-- TAX, TAY, TXA, TYA, TSX: copy and `SetZN` of the destination's value (R200 to R204). -/
def transfer (src dst : Reg) (s : State) : Result := ordinary .implicit (fun t => t.setRegZN dst (t.reg src)) s

/-- TAX, opcode 0xAA (R200). -/
def execTax (s : State) : Result := transfer .a .x s

/-- TAY, opcode 0xA8 (R201). -/
def execTay (s : State) : Result := transfer .a .y s

/-- TXA, opcode 0x8A (R202). -/
def execTxa (s : State) : Result := transfer .x .a s

/-- TYA, opcode 0x98 (R203). -/
def execTya (s : State) : Result := transfer .y .a s

/-- TSX, opcode 0xBA (R204). -/
def execTsx (s : State) : Result := transfer .sp .x s

/-- TXS, opcode 0x9A (R205). -/
def execTxs (s : State) : Result := ordinary .implicit (fun t => t.setSp t.x) s

end Sys2Proof.Machine
end

