-- ==== Sys2Proof/Machine/Fetch.lean ====
section
/-! DEFINITION. Instruction fetch (30_encoding.md R70, R72, R93): the bytes from PC on, through the same reads as data
(20_memory.md R65), with addresses wrapping (R95). -/

namespace Sys2Proof.Machine

/-- The opcode byte and the two bytes after it, modulo 65536. The decoder uses as many as the instruction has; a read changes nothing
(R51), so the others do not matter (log entry 6). -/
def fetchBytes (s : State) : List Byte := [s.read s.pc, s.read (s.pc + 1), s.read (s.pc + 2)]

/-- The instruction at PC, or why there is none. -/
def fetch (s : State) : Except DecodeError Instr := (decode (fetchBytes s)).map Prod.fst

/-- Store bytes at consecutive addresses, modulo 65536 (70_reset_and_hazards.md R253). -/
def placeBytes : Word → List Byte → State → State
  | _, [], s => s
  | addr, v :: vs, s => placeBytes (addr + 1) vs (s.write addr v)

/-- `run <- Running` (R254). -/
def startRun (s : State) : State := s.setRun .running

end Sys2Proof.Machine
end

