-- ==== Sys2Proof/Machine/Sequencer.lean ====
section
/-! DEFINITION. The sequencer (30_encoding.md R93). -/

namespace Sys2Proof.Machine

/-- The step of a running block (R93): fetch and decode at PC; an unmapped byte raises InvalidOpcode with nothing else changed
(60_exceptions.md R221, R224); an instruction is executed. BRK is tested "before decode" in R93; 0x00 decodes to BRK, whose meaning is
that halt, so the order is the same (log entry 7). -/
def runningStep (s : State) : Result :=
  match fetch s with
  | .ok i => exec i s
  | .error _ => raiseError .invalidOpcode (s.read s.pc) s

/-- One step of the block: "Only `Running` has a step" (10_state.md R35). A block that is not Running takes none, and all state survives
unchanged until the host acts (R226, R225, R236): the answer is the same state (log entry 4). -/
def sequencerStep (s : State) : Result :=
  match s.run with
  | .running => runningStep s
  | .idle | .halted | .faulted _ => .next s

end Sys2Proof.Machine
end

