-- ==== Sys2Proof/Machine/Step.lean ====
section
/-! DEFINITION. One step of the machine, and the placing of an instruction where the next step fetches it. -/

namespace Sys2Proof.Machine

/-- One step (30_encoding.md R93). -/
def step (s : State) : Host.Outcome State Fault Refusal := sequencerStep s

/-- The state with the instruction whose bits are `w` (bit 0 the least significant of the first byte, bits from `nbits` on zero) stored
at PC, and a run started: the host's program load and `start()` (70_reset_and_hazards.md R253, R254; log entry 8). PC stays. -/
def State.withFetchWord (s : State) (nbits w : Nat) : State :=
  startRun (placeBytes s.pc (bytesOfNat (w % 2 ^ nbits)) s)

end Sys2Proof.Machine
end

