-- ==== Sys2Proof/Machine/HostInterface.lean ====
section
/-! DEFINITION. The host interface (70_reset_and_hazards.md R251, R253, R254, R256, R261, R262): what the caller can do to the block, as
operations on State. None is part of a step: the host acts only between runs, or between steps when it single-steps (R262). -/

namespace Sys2Proof.Machine

/-- The host operations that change the state, `step()` and `run(n)` apart (R261). -/
inductive HostOp where
  | reset
  | write (addr : Word) (v : Byte)
  | setReg (r : Reg) (v : Byte)
  | setPc (v : Word)
  | setP (v : Byte)
  | setFlag (f : Flag) (v : Bool)
  | start
  deriving DecidableEq, Repr

/-- The effect of a host operation (R261). -/
def hostEffect : HostOp → State → State
  | .reset, _ => State.reset
  | .write addr v, s => s.write addr v
  | .setReg r v, s => s.setReg r v
  | .setPc v, s => s.setPc v
  | .setP v, s => s.setP v
  | .setFlag f v, s => s.setFlag f v
  | .start, s => startRun s

/-- The host acts on a block that is not Running; while it runs the host has no move (R261, R262, I9; log entry 11). -/
def hostAct (op : HostOp) (s : State) : Result :=
  match s.run with
  | .running => .refused .hostActsWhileRunning
  | .idle | .halted | .faulted _ => .next (hostEffect op s)

/-- What the host reads of a block that is not Running; while it runs the host has no read (R261, 20_memory.md R61; log entry 11). -/
def hostLook {α : Type} (f : State → α) (s : State) : Host.Outcome α Fault Refusal :=
  match s.run with
  | .running => .refused .hostActsWhileRunning
  | .idle | .halted | .faulted _ => .next (f s)

/-- `read(addr)` (R261, 20_memory.md R51, R61). -/
def hostRead (addr : Word) (s : State) : Host.Outcome Byte Fault Refusal := hostLook (·.read addr) s

/-- `read16(addr)` (R261, R53, R61). -/
def hostRead16 (addr : Word) (s : State) : Host.Outcome Word Fault Refusal := hostLook (·.read16 addr) s

/-- `get_reg` of A, X, Y or SP (R261). -/
def hostGetReg (r : Reg) (s : State) : Host.Outcome Byte Fault Refusal := hostLook (·.reg r) s

/-- `get_reg` of PC (R261). -/
def hostGetPc (s : State) : Host.Outcome Word Fault Refusal := hostLook (·.pc) s

/-- `get_reg` of P (R261). -/
def hostGetP (s : State) : Host.Outcome Byte Fault Refusal := hostLook (·.p) s

/-- `get_reg` of one flag of P (R261). -/
def hostGetFlag (f : Flag) (s : State) : Host.Outcome Bool Fault Refusal := hostLook (·.flag f) s

/-- `status()`: `run`, with the error record when Faulted, in any state (R261). -/
def hostStatus (s : State) : RunState := s.run

/-- The number of an error kind (R221, R222; log entry 12). -/
def errorCode : ErrorKind → Nat
  | .invalidOpcode => 1
  | .notImplementedInstruction => 2

/-- The boot of R253: write the program's bytes from an address on, set PC to that address, start the run. -/
def hostBoot (addr : Word) (program : List Byte) (s : State) : Result :=
  match s.run with
  | .running => .refused .hostActsWhileRunning
  | .idle | .halted | .faulted _ => .next (startRun ((placeBytes addr program s).setPc addr))

/-- `step()`: one step of a Running block (R261). It answers the state after the step, which is what a host that single-steps inspects
between steps (60_exceptions.md R235). -/
def hostStep (s : State) : Result :=
  match s.run with
  | .running => step s
  | .idle | .halted | .faulted _ => .refused .hostStepsWhileStopped

/-- Steps until `run ≠ Running` or the budget is used up (R256, R261). -/
def stepsWithin : Nat → State → Result
  | 0, s => .next s
  | n + 1, s =>
    match s.run with
    | .running =>
      match step s with
      | .next t => stepsWithin n t
      | .fault r => .fault r
      | .refused r => .refused r
    | .idle | .halted | .faulted _ => .next s

/-- `run(n)` of a Running block (R261). A result still Running is neither a halt nor an error (R256). -/
def hostRun (n : Nat) (s : State) : Result :=
  match s.run with
  | .running => stepsWithin n s
  | .idle | .halted | .faulted _ => .refused .hostStepsWhileStopped

end Sys2Proof.Machine
end

