-- ==== Sys2Proof/Safety.lean ====
section
/-! DEFINITION. What claims say of states and runs: the invariant every step keeps, and the ends of a run
(70_reset_and_hazards.md R255, R256). -/

namespace Sys2Proof.Machine

/-- An error record tells the truth about the state it was left in (60_exceptions.md R221, R222, R224): PC is the faulting address, the
byte stands there, and it is unmapped, or it is an ADC or SBC opcode with `P.D = 1` under `DECIMAL_POLICY = Fault`. -/
def recordSound (s : State) (e : ErrorRecord) : Prop :=
  e.address = s.pc ∧ e.byte = s.read s.pc ∧
    match e.kind with
    | .invalidOpcode => lookupRow opcodeTable e.byte = none
    | .notImplementedInstruction =>
      s.flag .d = true ∧ Config.decimalPolicy = .fault ∧
        ∃ i, fetch s = .ok i ∧ i.opcode = e.byte ∧ (i.op = .adc ∨ i.op = .sbc)

/-- What `run` says is true of the rest of the state: a halted block's PC is just past a BRK (49_system.md R210), a faulted block's
record is sound. -/
def runSound (s : State) : Prop :=
  match s.run with
  | .idle | .running => True
  | .halted => s.read (s.pc - 1) = 0x00
  | .faulted e => recordSound s e

/-- The invariant: memory is in its canonical form, and `run` tells the truth. -/
def Invariant (s : State) : Prop := s.mem.wf = true ∧ runSound s

/-- The state after `k` steps. A step that answered no next state would leave the state where it is; there is none
(60_exceptions.md R220). -/
def stateAfter : Nat → State → State
  | 0, s => s
  | k + 1, s =>
    match step s with
    | .next t => stateAfter k t
    | .fault _ | .refused _ => s

/-- The block is in no error state. -/
def ErrorFree (s : State) : Prop := ∀ e, s.run ≠ .faulted e

/-- A safe run of `n` steps: no error state on the way (R255). -/
def SafeRun (n : Nat) (s : State) : Prop := ∀ k, k ≤ n → ErrorFree (stateAfter k s)

/-- The run ends in success within `n` steps (R255). -/
def HaltsWithin (n : Nat) (s : State) : Prop := ∃ k, k ≤ n ∧ (stateAfter k s).run = .halted

/-- Registers other than the named ones are unchanged. -/
def RegsKeptBut (rs : List Reg) (s t : State) : Prop := ∀ r, r ∉ rs → t.reg r = s.reg r

/-- Flags other than the named ones are unchanged. -/
def FlagsKeptBut (fs : List Flag) (s t : State) : Prop := ∀ f, f ∉ fs → t.flag f = s.flag f

/-- Every byte of memory outside the named addresses reads as before. -/
def MemoryKeptBut (addrs : List Word) (s t : State) : Prop := ∀ a, a ∉ addrs → t.read a = s.read a

/-- Z and N stand as `SetZN(v)` leaves them (00_scope.md R11). -/
def ShowsZN (v : Byte) (t : State) : Prop := t.flag .z = decide (v = 0) ∧ t.flag .n = v.getLsbD 7

/-- The instruction completes in `t`: `exec` answers it, the run goes on as it was, and PC has moved past the instruction
(30_encoding.md R94). -/
def Completes (i : Instr) (s t : State) : Prop :=
  exec i s = .next t ∧ t.pc = s.pc + BitVec.ofNat 16 i.mode.length ∧ t.run = s.run

/-- The instruction completes with `v` in register `r`, Z and N from `v`, and nothing else changed. -/
def WritesRegister (i : Instr) (s : State) (r : Reg) (v : Byte) : Prop :=
  ∃ t, Completes i s t ∧ t.reg r = v ∧ ShowsZN v t ∧
    RegsKeptBut [r] s t ∧ FlagsKeptBut [.z, .n] s t ∧ MemoryKeptBut [] s t

/-- The form of an instruction, its addressing mode and opcode byte, is one of those listed (the Operands and Encoding lines of a
rule). -/
abbrev HasForm (i : Instr) (forms : List (Mode × Byte)) : Prop := (i.mode, i.opcode) ∈ forms

/-- The compares: register compared, and forms (40_arithmetic.md R114 to R116). -/
abbrev compareRows : List (Op × Reg × List (Mode × Byte)) :=
  [(Op.cmp, Reg.a, [(.immediate, 0xC9), (.zeroPage, 0xC5), (.zeroPageX, 0xD5), (.absolute, 0xCD), (.absoluteX, 0xDD),
      (.absoluteY, 0xD9), (.indirectX, 0xC1), (.indirectY, 0xD1)]),
    (.cpx, .x, [(.immediate, 0xE0), (.zeroPage, 0xE4), (.absolute, 0xEC)]),
    (.cpy, .y, [(.immediate, 0xC0), (.zeroPage, 0xC4), (.absolute, 0xCC)])]

/-- The loads: register written, and forms (42_load_store.md R130 to R132). -/
abbrev loadRows : List (Op × Reg × List (Mode × Byte)) :=
  [(Op.lda, Reg.a, [(.immediate, 0xA9), (.zeroPage, 0xA5), (.zeroPageX, 0xB5), (.absolute, 0xAD), (.absoluteX, 0xBD),
      (.absoluteY, 0xB9), (.indirectX, 0xA1), (.indirectY, 0xB1)]),
    (.ldx, .x, [(.immediate, 0xA2), (.zeroPage, 0xA6), (.zeroPageY, 0xB6), (.absolute, 0xAE), (.absoluteY, 0xBE)]),
    (.ldy, .y, [(.immediate, 0xA0), (.zeroPage, 0xA4), (.zeroPageX, 0xB4), (.absolute, 0xAC), (.absoluteX, 0xBC)])]

/-- The stores: register stored, and forms (42_load_store.md R133 to R135). -/
abbrev storeRows : List (Op × Reg × List (Mode × Byte)) :=
  [(Op.sta, Reg.a, [(.zeroPage, 0x85), (.zeroPageX, 0x95), (.absolute, 0x8D), (.absoluteX, 0x9D), (.absoluteY, 0x99),
      (.indirectX, 0x81), (.indirectY, 0x91)]),
    (.stx, .x, [(.zeroPage, 0x86), (.zeroPageY, 0x96), (.absolute, 0x8E)]),
    (.sty, .y, [(.zeroPage, 0x84), (.zeroPageX, 0x94), (.absolute, 0x8C)])]

/-- The branches of a displacement: opcode byte, flag tested, and the value it is taken on (43_branches.md R141 to R148). -/
abbrev branchRows (d : Byte) : List (Instr × Byte × Flag × Bool) :=
  [(Instr.bcc d, 0x90, Flag.c, false), (.bcs d, 0xB0, .c, true), (.beq d, 0xF0, .z, true), (.bmi d, 0x30, .n, true),
    (.bne d, 0xD0, .z, false), (.bpl d, 0x10, .n, false), (.bvc d, 0x50, .v, false), (.bvs d, 0x70, .v, true)]

/-- The flag instructions: opcode byte, flag written, and its value (48_flags_transfers.md R190 to R196). -/
abbrev flagRows : List (Instr × Byte × Flag × Bool) :=
  [(Instr.clc, 0x18, Flag.c, false), (.cld, 0xD8, .d, false), (.cli, 0x58, .i, false), (.clv, 0xB8, .v, false),
    (.sec, 0x38, .c, true), (.sed, 0xF8, .d, true), (.sei, 0x78, .i, true)]

/-- The bytes an instruction stores to: the effective address of a store, an increment or decrement or a shift of memory, the stack
slot of a push, the two slots of JSR; none otherwise (20_memory.md R52, R57; 45_jumps_calls.md R161). -/
def storedAddresses (i : Instr) (s : State) : List Word :=
  match i.op with
  | .sta | .stx | .sty | .inc | .dec | .asl | .lsr | .rol | .ror => (effectiveAddress i s).toList
  | .pha | .php => [stackAddr s.sp]
  | .jsr => [stackAddr s.sp, stackAddr (s.sp - 1)]
  | _ => []

/-- The same instruction executed `k` times in a row. -/
def execTimes : Nat → Instr → State → Result
  | 0, _, s => .next s
  | k + 1, i, s =>
    match exec i s with
    | .next t => execTimes k i t
    | .fault r => .fault r
    | .refused r => .refused r

/-- Two states that differ at most in one flag. -/
def SameButFlag (f : Flag) (s s' : State) : Prop :=
  s'.a = s.a ∧ s'.x = s.x ∧ s'.y = s.y ∧ s'.sp = s.sp ∧ s'.pc = s.pc ∧ s'.mem = s.mem ∧ s'.run = s.run ∧
    FlagsKeptBut [f] s s'

/-- The bytes of an encoding stand at PC (addresses modulo 65536, R95). -/
def StandsAtPc (i : Instr) (s : State) : Prop :=
  ∀ k b, (encode i)[k]? = some b → s.read (s.pc + BitVec.ofNat 16 k) = b

/-- The operand field is the byte `z`, which is the byte after the opcode byte where the instruction stands at PC. -/
def ByteOperand (i : Instr) (s : State) (z : Byte) : Prop := i.operand = .byte z ∧ (StandsAtPc i s → s.read (s.pc + 1) = z)

/-- The operand field is the word `a`, which is the little-endian word after the opcode byte where the instruction stands at PC. -/
def WordOperand (i : Instr) (s : State) (a : Word) : Prop := i.operand = .word a ∧ (StandsAtPc i s → s.read16 (s.pc + 1) = a)

end Sys2Proof.Machine
end

