-- ==== Sys2Proof/WellFormed.lean ====
section
/-! DEFINITION. Which (mnemonic, addressing mode) pairs exist (30_encoding.md R74, and the "Operands" lines of R111 to R212),
and well-formedness of an instruction. Operand fields need no check: each is a bit vector of its field's width and every value
is legal (R72, "No field is scaled or shifted"; 10_state.md R21). -/

namespace Sys2Proof

/-- The addressing modes a mnemonic has. -/
def Op.modes : Op → List Mode
  | .adc | .sbc | .cmp | .and | .ora | .eor | .lda =>
    [.immediate, .zeroPage, .zeroPageX, .absolute, .absoluteX, .absoluteY, .indirectX, .indirectY]
  | .cpx | .cpy =>
    [.immediate, .zeroPage, .absolute]
  | .bit =>
    [.zeroPage, .absolute]
  | .ldx =>
    [.immediate, .zeroPage, .zeroPageY, .absolute, .absoluteY]
  | .ldy =>
    [.immediate, .zeroPage, .zeroPageX, .absolute, .absoluteX]
  | .sta =>
    [.zeroPage, .zeroPageX, .absolute, .absoluteX, .absoluteY, .indirectX, .indirectY]
  | .stx =>
    [.zeroPage, .zeroPageY, .absolute]
  | .sty =>
    [.zeroPage, .zeroPageX, .absolute]
  | .bcc | .bcs | .beq | .bmi | .bne | .bpl | .bvc | .bvs =>
    [.relative]
  | .inc | .dec =>
    [.zeroPage, .zeroPageX, .absolute, .absoluteX]
  | .inx | .iny | .dex | .dey | .rts | .pha | .php | .pla | .plp | .clc | .cld | .cli | .clv | .sec
  | .sed | .sei | .tax | .tay | .txa | .tya | .tsx | .txs | .brk | .nop | .rti =>
    [.implicit]
  | .jmp =>
    [.absolute, .indirect]
  | .jsr =>
    [.absolute]
  | .asl | .lsr | .rol | .ror =>
    [.accumulator, .zeroPage, .zeroPageX, .absolute, .absoluteX]

/-- The pair is mapped by R74. -/
def formExists (o : Op) (m : Mode) : Bool := o.modes.contains m

/-- The field an addressing mode asks for (R71, R72) is the field the operand is. -/
def Mode.takes : Mode → Operand → Bool
  | .implicit, .none | .accumulator, .none => true
  | .immediate, .byte _ | .zeroPage, .byte _ | .zeroPageX, .byte _ | .zeroPageY, .byte _ => true
  | .indirectX, .byte _ | .indirectY, .byte _ | .relative, .byte _ => true
  | .absolute, .word _ | .absoluteX, .word _ | .absoluteY, .word _ | .indirect, .word _ => true
  | _, _ => false

/-- An instruction is well formed: its mnemonic has its mode, and its operand is the field that mode asks for. -/
def Instr.wf (i : Instr) : Bool := formExists i.op i.mode && i.mode.takes i.operand

end Sys2Proof
end

