-- ==== Sys2Proof/Certificates/Slice0/Obligations.lean ====
section
/-! DEFINITION. The statements for the provers. Each docstring names the rules of spec/ it formalises, and the decision of the spec
or the log entry it rests on where it is not a rule alone. -/

open Sys2Proof Sys2Proof.Machine

-- Reset and the invariant

/-- R36, R66: the value of every component after reset. -/
def Obligations.ResetStateHasTheSpecifiedValues : Prop :=
  State.reset.a = 0x00 ∧ State.reset.x = 0x00 ∧ State.reset.y = 0x00 ∧ State.reset.sp = 0xFF ∧ State.reset.pc = 0x0000 ∧
    State.reset.p = 0x00 ∧ (∀ f, State.reset.flag f = false) ∧ (∀ addr, State.reset.read addr = 0x00) ∧ State.reset.run = .idle

/-- The invariant (canonical memory, log entry 9; truth of `run`, R210, R221, R222, R224 with D8) holds at reset. -/
def Obligations.ResetMeetsTheInvariant : Prop := Invariant State.reset

/-- Every step keeps the invariant: a halted block stands just past a BRK, an error record names the byte at PC and the true cause
(R210, R221, R222, R224 with D8), and memory stays canonical (log entry 9). Holds for every value of the three open parameters. -/
def Obligations.StepKeepsTheInvariant : Prop := ∀ s t, Invariant s → step s = .next t → Invariant t

-- Encoding

/-- Decoding the encoding of any well-formed instruction gives it back, whatever bytes follow (R70 to R76). -/
def Obligations.DecodeOfEncodeIsTheInstruction : Prop :=
  ∀ (i : Instr) (rest : List Byte), i.wf = true → decode (encode i ++ rest) = .ok (i, rest)

/-- Bytes that decode are the encoding of what they decode to: each instruction has one encoding (R70 to R76). -/
def Obligations.DecodedBytesAreTheEncoding : Prop :=
  ∀ (bytes : List Byte) (i : Instr) (rest : List Byte), decode bytes = .ok (i, rest) →
    bytes = encode i ++ rest ∧ i.wf = true ∧ (encode i).length = i.mode.length

/-- The opcode bytes no instruction has are exactly the 105 that 30_encoding.md lists, and each is rejected by name (rests on D6). -/
def Obligations.UnmappedBytesAreTheListedOnes : Prop :=
  ∀ b : Byte, (∀ rest, decode (b :: rest) = .error (.invalidOpcode b)) ↔
    b ∈ ([0x02, 0x03, 0x04, 0x07, 0x0B, 0x0C, 0x0F, 0x12, 0x13, 0x14, 0x17, 0x1A, 0x1B, 0x1C, 0x1F, 0x22, 0x23, 0x27, 0x2B, 0x2F,
      0x32, 0x33, 0x34, 0x37, 0x3A, 0x3B, 0x3C, 0x3F, 0x42, 0x43, 0x44, 0x47, 0x4B, 0x4F, 0x52, 0x53, 0x54, 0x57, 0x5A, 0x5B,
      0x5C, 0x5F, 0x62, 0x63, 0x64, 0x67, 0x6B, 0x6F, 0x72, 0x73, 0x74, 0x77, 0x7A, 0x7B, 0x7C, 0x7F, 0x80, 0x82, 0x83, 0x87,
      0x89, 0x8B, 0x8F, 0x92, 0x93, 0x97, 0x9B, 0x9C, 0x9E, 0x9F, 0xA3, 0xA7, 0xAB, 0xAF, 0xB2, 0xB3, 0xB7, 0xBB, 0xBF, 0xC2,
      0xC3, 0xC7, 0xCB, 0xCF, 0xD2, 0xD3, 0xD4, 0xD7, 0xDA, 0xDB, 0xDC, 0xDF, 0xE2, 0xE3, 0xE7, 0xEB, 0xEF, 0xF2, 0xF3, 0xF4,
      0xF7, 0xFA, 0xFB, 0xFC, 0xFF] : List Byte)

/-- Words written out from R74 and R72 decode to what they stand for: one of each family. -/
def Obligations.WordsWrittenFromTheOpcodeMapDecode : Prop :=
  decode [0x69, 0x0A] = .ok (.adcImmediate 0x0A, []) ∧ decode [0x51, 0x22] = .ok (.eorIndirectY 0x22, []) ∧
    decode [0xBE, 0x34, 0x12] = .ok (.ldxAbsoluteY 0x1234, []) ∧ decode [0xD0, 0xFA] = .ok (.bne 0xFA, []) ∧
    decode [0xDE, 0x00, 0x03] = .ok (.decAbsoluteX 0x0300, []) ∧ decode [0x6C, 0xFF, 0x10] = .ok (.jmpIndirect 0x10FF, []) ∧
    decode [0x6A] = .ok (.rorAccumulator, []) ∧ decode [0x08] = .ok (.php, []) ∧ decode [0xF8] = .ok (.sed, []) ∧
    decode [0xBA] = .ok (.tsx, []) ∧ decode [0x00] = .ok (.brk, [])

-- The step

/-- A running block whose bytes at PC decode to an instruction does exactly what `exec` says of it (R93). -/
def Obligations.StepRunsTheDecodedInstruction : Prop :=
  ∀ (s : State) (i : Instr) (rest : List Byte), s.run = .running → decode (fetchBytes s) = .ok (i, rest) → step s = exec i s

/-- A running block with the bytes of a well-formed instruction at PC, at any address and across 0xFFFF, executes it (R70, R72, R93; the
wrap past 0xFFFF is D1). -/
def Obligations.EncodedBytesAtPcAreExecuted : Prop :=
  ∀ (s : State) (i : Instr), s.run = .running → i.wf = true → StandsAtPc i s → step s = exec i s

/-- An unmapped byte at PC raises InvalidOpcode with that byte and address, and changes nothing but `run` (rests on D6, D8). -/
def Obligations.UnmappedByteFaultsPrecisely : Prop :=
  ∀ s : State, s.run = .running → (∀ i : Instr, i.opcode ≠ s.read s.pc) →
    step s = .next { s with run := .faulted ⟨.invalidOpcode, s.read s.pc, s.pc⟩ }

/-- The step answers a next state from every state, whatever the block holds. For a Running block: an access, alignment, stack, arithmetic
or privilege fault does not exist (R220), and that its two errors are next states with `run = Faulted(e)` and no fault outcome is the
model's reading (log entry 5). For a block that is not Running, to which R35 gives no step, it is the model's reading that the step
answers the same state (log entry 4). -/
def Obligations.EveryStepAnswersAState : Prop := ∀ s : State, ∃ t, step s = .next t

/-- A block that is not Running keeps all its state (R225, R226, R236). That its step answers the same state is the model's reading
(log entry 4). -/
def Obligations.StoppedBlockKeepsItsState : Prop := ∀ s : State, s.run ≠ .running → step s = .next s

/-- How a step of a running block can end (R227): halted on a zero byte, InvalidOpcode, NotImplementedInstruction by an ADC or SBC with
`P.D = 1`, or still running. The error endings leave all else (rests on D8). -/
def Obligations.RunningStepEndsInOneOfFourWays : Prop :=
  ∀ s t : State, s.run = .running → step s = .next t →
    (t.run = .halted ∧ s.read s.pc = 0x00) ∨
    (t = { s with run := .faulted ⟨.invalidOpcode, s.read s.pc, s.pc⟩ } ∧ ∀ i : Instr, i.opcode ≠ s.read s.pc) ∨
    (t = { s with run := .faulted ⟨.notImplementedInstruction, s.read s.pc, s.pc⟩ } ∧ s.flag .d = true ∧
      ∃ i : Instr, i.opcode = s.read s.pc ∧ (i.op = .adc ∨ i.op = .sbc)) ∨
    (t.run = .running ∧ s.read s.pc ≠ 0x00 ∧ ∃ i : Instr, i.opcode = s.read s.pc)

-- Memory, stack and operands

/-- R53: the two-byte read is little-endian and wraps at 16 bits, never within a page. -/
def Obligations.WordReadIsLittleEndian : Prop :=
  (∀ (s : State) (addr : Word), (s.read16 addr).toNat = (s.read (addr + 1)).toNat * 256 + (s.read addr).toNat) ∧
    (∀ s : State, (s.read16 0xFFFF).toNat = (s.read 0x0000).toNat * 256 + (s.read 0xFFFF).toNat) ∧
    (∀ s : State, (s.read16 0x10FF).toNat = (s.read 0x1100).toNat * 256 + (s.read 0x10FF).toNat)

/-- R57, R58, with the wraps of R59: Push writes at 0x0100 + SP and then decrements SP; Pull increments SP and then reads; both wrap within the page. -/
def Obligations.PushAndPullMoveOneByte : Prop :=
  (∀ (s : State) (v : Byte), s.mem.wf = true →
    (push v s).sp = s.sp - 1 ∧ (push v s).read (0x0100 + s.sp.setWidth 16) = v ∧
      MemoryKeptBut [0x0100 + s.sp.setWidth 16] s (push v s) ∧ RegsKeptBut [.sp] s (push v s) ∧
      (push v s).pc = s.pc ∧ (push v s).p = s.p ∧ (push v s).run = s.run) ∧
  (∀ s : State, pullByte s = s.read (0x0100 + (s.sp + 1).setWidth 16) ∧ pulled s = { s with sp := s.sp + 1 }) ∧
  (∀ (s : State) (v : Byte), s.mem.wf = true → s.sp = 0x00 → (push v s).sp = 0xFF ∧ (push v s).read 0x0100 = v) ∧
  (∀ s : State, s.sp = 0xFF → (pulled s).sp = 0x00 ∧ pullByte s = s.read 0x0100)

/-- R82 to R89 (and R92's address): the operand or effective address of each mode that needs no zero-page pointer, the lengths, and which
instructions have the modes the rules give to a few. The operand field is what stands after the opcode byte at PC. -/
def Obligations.EffectiveAddressOfEachMode : Prop :=
  ∀ (i : Instr) (s : State),
    (i.mode = .immediate → i.mode.length = 2 ∧ i.op ∉ [.sta, .stx, .sty, .inc, .dec, .asl, .lsr, .rol, .ror] ∧
      ∃ v, ByteOperand i s v ∧ effectiveAddress i s = some (s.pc + 1) ∧ operandByte i s = some v) ∧
    (i.mode = .zeroPage → i.mode.length = 2 ∧
      ∃ z, ByteOperand i s z ∧ effectiveAddress i s = some (z.setWidth 16)) ∧
    (i.mode = .zeroPageX → i.mode.length = 2 ∧
      ∃ z, ByteOperand i s z ∧ effectiveAddress i s = some ((z + s.x).setWidth 16)) ∧
    (i.mode = .zeroPageY → i.mode.length = 2 ∧ (i.op = .ldx ∨ i.op = .stx) ∧
      ∃ z, ByteOperand i s z ∧ effectiveAddress i s = some ((z + s.y).setWidth 16)) ∧
    (i.mode = .absolute → i.mode.length = 3 ∧ ∃ a, WordOperand i s a ∧ effectiveAddress i s = some a) ∧
    (i.mode = .absoluteX → i.mode.length = 3 ∧
      ∃ a, WordOperand i s a ∧ effectiveAddress i s = some (a + s.x.setWidth 16)) ∧
    (i.mode = .absoluteY → i.mode.length = 3 ∧
      ∃ a, WordOperand i s a ∧ effectiveAddress i s = some (a + s.y.setWidth 16)) ∧
    (i.mode = .indirect → i.mode.length = 3 ∧ i.op = .jmp ∧
      ∃ a, WordOperand i s a ∧ effectiveAddress i s = some (s.read (a + 1) ++ s.read a)) ∧
    (i.mode = .relative → i.mode.length = 2 ∧ i.op ∈ [.bcc, .bcs, .beq, .bmi, .bne, .bpl, .bvc, .bvs] ∧
      ∃ d, ByteOperand i s d ∧ effectiveAddress i s = some (s.pc + 1))

/-- The zero-page pointer modes, IndirectX and IndirectY (R90, R91). Where a pointer at 0xFF has its high byte is the spec's open decision
D2: the model admits both values of `ZP_POINTER_WRAP` (log entry 1, DESIGN CHOICE), and the statement holds for each. -/
def Obligations.ZeroPagePointerModes : Prop :=
  ∀ (i : Instr) (s : State),
    (i.mode = .indirectX → i.mode.length = 2 ∧ ∃ z, ByteOperand i s z ∧
      let p := z + s.x
      effectiveAddress i s = some (match Config.zpPointerWrap with
        | .linear => s.read (p.setWidth 16 + 1) ++ s.read (p.setWidth 16)
        | .page => s.read ((p + 1).setWidth 16) ++ s.read (p.setWidth 16))) ∧
    (i.mode = .indirectY → i.mode.length = 2 ∧ ∃ p, ByteOperand i s p ∧
      effectiveAddress i s = some ((match Config.zpPointerWrap with
        | .linear => s.read (p.setWidth 16 + 1) ++ s.read (p.setWidth 16)
        | .page => s.read ((p + 1).setWidth 16) ++ s.read (p.setWidth 16)) + s.y.setWidth 16))

/-- The operand byte of a memory mode is the byte at the effective address; in Accumulator mode it is A (R81, 00_scope.md R12). -/
def Obligations.OperandByteIsReadAtTheEffectiveAddress : Prop :=
  ∀ (i : Instr) (s : State),
    (i.mode ∈ [.zeroPage, .zeroPageX, .zeroPageY, .absolute, .absoluteX, .absoluteY, .indirectX, .indirectY] →
      ∃ ea, effectiveAddress i s = some ea ∧ operandByte i s = some (s.read ea)) ∧
    (i.mode = .accumulator → i.op ∈ [.asl, .lsr, .rol, .ror] ∧ i.mode.length = 1 ∧ operandByte i s = some s.a)

-- Arithmetic

/-- What the two chained additions of AddCore give: the sum modulo 256, the carry out of the whole sum, and the signed overflow
(40_arithmetic.md, "Consequences", derived there from R110, and the source's property L1.1). -/
def Obligations.AdderGivesSumCarryAndSignedOverflow : Prop :=
  ∀ (a m : Byte) (cin : Bool),
    (addCore a m cin).1.toNat = (a.toNat + m.toNat + cin.toNat) % 256 ∧
    (addCore a m cin).2.1 = decide (256 ≤ a.toNat + m.toNat + cin.toNat) ∧
    (addCore a m cin).2.2 = decide (a.toInt + m.toInt + cin.toNat < -128 ∨ 127 < a.toInt + m.toInt + cin.toNat)

/-- ADC and SBC when they compute: with `P.D = 0`, A takes the sum of A, the operand (complemented for SBC) and the carry, and C, V, Z, N
are AddCore's (40_arithmetic.md, AddCore, ADC, SBC). -/
def Obligations.AddAndSubtractWithCarry : Prop :=
  ∀ (i : Instr) (s : State), (i.op = .adc ∨ i.op = .sbc) → s.flag .d = false →
    HasForm i (if i.op = .adc then [(.immediate, 0x69), (.zeroPage, 0x65), (.zeroPageX, 0x75), (.absolute, 0x6D), (.absoluteX, 0x7D),
        (.absoluteY, 0x79), (.indirectX, 0x61), (.indirectY, 0x71)]
      else [(.immediate, 0xE9), (.zeroPage, 0xE5), (.zeroPageX, 0xF5), (.absolute, 0xED), (.absoluteX, 0xFD), (.absoluteY, 0xF9),
        (.indirectX, 0xE1), (.indirectY, 0xF1)]) ∧
    ∃ m n t, operandByte i s = some m ∧ n = (if i.op = .adc then m else ~~~m) ∧ Completes i s t ∧
      t.a = s.a + n + (if s.flag .c then 1 else 0) ∧
      t.flag .c = decide (256 ≤ s.a.toNat + n.toNat + (s.flag .c).toNat) ∧
      t.flag .v = (((s.a ^^^ t.a) &&& (n ^^^ t.a)).getLsbD 7) ∧
      ShowsZN t.a t ∧ RegsKeptBut [.a] s t ∧ FlagsKeptBut [.c, .z, .v, .n] s t ∧ MemoryKeptBut [] s t

/-- ADC and SBC with `P.D = 1`: under `DECIMAL_POLICY = Fault` they raise NotImplementedInstruction with their opcode byte and address and
change nothing but `run`; under `Binary` they do what they do with `P.D = 0`, and D stays (open, log entry 2; rests on D3, D8). -/
def Obligations.DecimalModeFaultsOrComputesInBinary : Prop :=
  ∀ (i : Instr) (s : State), (i.op = .adc ∨ i.op = .sbc) → s.flag .d = true →
    match Config.decimalPolicy with
    | .fault => exec i s = .next { s with run := .faulted ⟨.notImplementedInstruction, i.opcode, s.pc⟩ }
    | .binary => ∃ t, exec i (s.setFlag .d false) = .next t ∧ exec i s = .next (t.setFlag .d true)

/-- R113 to R116: CMP, CPX, CPY compare A, X, Y with the operand: C, Z, N, and nothing else; no decimal guard. -/
def Obligations.ComparesSetCarryZeroNegative : Prop :=
  ∀ (i : Instr) (s : State) (r : Reg) (forms : List (Mode × Byte)), (i.op, r, forms) ∈ compareRows →
    HasForm i forms ∧ ∃ m t, operandByte i s = some m ∧ Completes i s t ∧
      t.flag .c = decide (m.toNat ≤ (s.reg r).toNat) ∧ t.flag .z = decide (s.reg r = m) ∧
      t.flag .n = (s.reg r - m).getLsbD 7 ∧
      RegsKeptBut [] s t ∧ FlagsKeptBut [.c, .z, .n] s t ∧ MemoryKeptBut [] s t

/-- SBC is ADC of the complemented operand in every effect, and adding with carry in 0 and then subtracting with carry in 1 restores A
(40_arithmetic.md, "Arithmetic laws"; 90_conflicts.md C1 corrects the source's version, which gives A + 1). -/
def Obligations.SubtractIsAddOfComplementAndRoundTrips : Prop :=
  (∀ (s : State) (v : Byte), s.flag .d = false → exec (.sbcImmediate v) s = exec (.adcImmediate (~~~v)) s) ∧
  (∀ (s : State) (v : Byte), s.flag .d = false → s.flag .c = false →
    ∃ t u, exec (.adcImmediate v) s = .next t ∧ exec (.sbcImmediate v) (t.setFlag .c true) = .next u ∧ u.a = s.a) ∧
  (∀ (s : State) (v : Byte), s.flag .d = false → s.flag .c = true →
    ∃ t u, exec (.adcImmediate v) s = .next t ∧ exec (.sbcImmediate v) (t.setFlag .c true) = .next u ∧ u.a = s.a + 1)

-- Logical

/-- R120, R121, R122: AND, ORA, EOR combine A with the operand into A, with Z and N from the result and no other flag. -/
def Obligations.LogicalInstructionsCombineIntoA : Prop :=
  ∀ (i : Instr) (s : State),
    (i.op = .and →
      HasForm i [(.immediate, 0x29), (.zeroPage, 0x25), (.zeroPageX, 0x35), (.absolute, 0x2D), (.absoluteX, 0x3D), (.absoluteY, 0x39),
        (.indirectX, 0x21), (.indirectY, 0x31)] ∧ ∃ m, operandByte i s = some m ∧ WritesRegister i s .a (s.a &&& m)) ∧
    (i.op = .ora →
      HasForm i [(.immediate, 0x09), (.zeroPage, 0x05), (.zeroPageX, 0x15), (.absolute, 0x0D), (.absoluteX, 0x1D), (.absoluteY, 0x19),
        (.indirectX, 0x01), (.indirectY, 0x11)] ∧ ∃ m, operandByte i s = some m ∧ WritesRegister i s .a (s.a ||| m)) ∧
    (i.op = .eor →
      HasForm i [(.immediate, 0x49), (.zeroPage, 0x45), (.zeroPageX, 0x55), (.absolute, 0x4D), (.absoluteX, 0x5D), (.absoluteY, 0x59),
        (.indirectX, 0x41), (.indirectY, 0x51)] ∧ ∃ m, operandByte i s = some m ∧ WritesRegister i s .a (s.a ^^^ m))

/-- R123: BIT takes Z from `A & M` and N and V from bits 7 and 6 of the operand, and writes nothing else. -/
def Obligations.BitTestsWithoutWriting : Prop :=
  ∀ (i : Instr) (s : State), i.op = .bit →
    HasForm i [(.zeroPage, 0x24), (.absolute, 0x2C)] ∧ ∃ m t, operandByte i s = some m ∧ Completes i s t ∧
      t.flag .z = decide (s.a &&& m = 0) ∧ t.flag .n = m.getLsbD 7 ∧ t.flag .v = m.getLsbD 6 ∧
      RegsKeptBut [] s t ∧ FlagsKeptBut [.z, .n, .v] s t ∧ MemoryKeptBut [] s t

-- Load and store

/-- LDA, LDX, LDY put the operand byte in A, X, Y, with Z and N from it (42_load_store.md; rests on D11). -/
def Obligations.LoadsWriteTheirRegister : Prop :=
  ∀ (i : Instr) (s : State) (r : Reg) (forms : List (Mode × Byte)), (i.op, r, forms) ∈ loadRows →
    HasForm i forms ∧ ∃ m, operandByte i s = some m ∧ WritesRegister i s r m

/-- STA, STX, STY put A, X, Y at the effective address and change nothing else (42_load_store.md; rests on D11). -/
def Obligations.StoresWriteOneByte : Prop :=
  ∀ (i : Instr) (s : State) (r : Reg) (forms : List (Mode × Byte)), s.mem.wf = true →
    (i.op, r, forms) ∈ storeRows →
    HasForm i forms ∧ ∃ ea t, effectiveAddress i s = some ea ∧ Completes i s t ∧ t.read ea = s.reg r ∧ MemoryKeptBut [ea] s t ∧
      RegsKeptBut [] s t ∧ FlagsKeptBut [] s t

-- Branches

/-- The eight branches: taken, PC goes to the address after the branch plus the signed displacement, modulo 65536; not taken, to the
address after the branch; nothing else changes (43_branches.md, rests on D18 for the order of the two additions). -/
def Obligations.BranchesTestOneFlag : Prop :=
  ∀ (i : Instr) (b d : Byte) (f : Flag) (want : Bool) (s : State),
    (i, b, f, want) ∈ branchRows d →
    HasForm i [(.relative, b)] ∧ exec i s = .next { s with pc := if s.flag f = want then s.pc + 2 + d.signExtend 16 else s.pc + 2 }

-- Increment and decrement

/-- R150, R151: INC and DEC add or subtract one at the effective address modulo 256, with Z and N from the result, C and V untouched. -/
def Obligations.IncrementAndDecrementMemory : Prop :=
  ∀ (i : Instr) (s : State), s.mem.wf = true → (i.op = .inc ∨ i.op = .dec) →
    HasForm i (if i.op = .inc then [(.zeroPage, 0xE6), (.zeroPageX, 0xF6), (.absolute, 0xEE), (.absoluteX, 0xFE)]
      else [(.zeroPage, 0xC6), (.zeroPageX, 0xD6), (.absolute, 0xCE), (.absoluteX, 0xDE)]) ∧
    ∃ ea t, effectiveAddress i s = some ea ∧ Completes i s t ∧
      t.read ea = (if i.op = .inc then s.read ea + 1 else s.read ea - 1) ∧ ShowsZN (t.read ea) t ∧
      MemoryKeptBut [ea] s t ∧ RegsKeptBut [] s t ∧ FlagsKeptBut [.z, .n] s t

/-- R152 to R155: INX, INY, DEX, DEY add or subtract one modulo 256, with Z and N from the result. -/
def Obligations.IncrementAndDecrementRegisters : Prop :=
  ∀ s : State,
    (HasForm .inx [(.implicit, 0xE8)] ∧ WritesRegister .inx s .x (s.x + 1)) ∧
    (HasForm .iny [(.implicit, 0xC8)] ∧ WritesRegister .iny s .y (s.y + 1)) ∧
    (HasForm .dex [(.implicit, 0xCA)] ∧ WritesRegister .dex s .x (s.x - 1)) ∧
    (HasForm .dey [(.implicit, 0x88)] ∧ WritesRegister .dey s .y (s.y - 1))

-- Jumps and calls

/-- R160: JMP sets PC to its target, absolute or through a 16-bit pointer read that does not wrap in the page, and changes nothing else. -/
def Obligations.JumpSetsOnlyPc : Prop :=
  ∀ (s : State) (a : Word),
    (HasForm (.jmpAbsolute a) [(.absolute, 0x4C)] ∧ exec (.jmpAbsolute a) s = .next { s with pc := a }) ∧
    (HasForm (.jmpIndirect a) [(.indirect, 0x6C)] ∧ exec (.jmpIndirect a) s = .next { s with pc := s.read (a + 1) ++ s.read a })

/-- JSR pushes the address of its own last byte, high byte first, and goes to its target (45_jumps_calls.md; the two stack addresses
rest on D16). -/
def Obligations.CallPushesItsLastByteAddress : Prop :=
  ∀ (s : State) (a : Word), s.mem.wf = true →
    HasForm (.jsr a) [(.absolute, 0x20)] ∧ ∃ t, exec (.jsr a) s = .next t ∧ t.pc = a ∧ t.sp = s.sp - 2 ∧
      t.read (0x0100 + s.sp.setWidth 16) = (s.pc + 2).extractLsb' 8 8 ∧
      t.read (0x0100 + (s.sp - 1).setWidth 16) = (s.pc + 2).extractLsb' 0 8 ∧
      MemoryKeptBut [0x0100 + s.sp.setWidth 16, 0x0100 + (s.sp - 1).setWidth 16] s t ∧
      RegsKeptBut [.sp] s t ∧ FlagsKeptBut [] s t ∧ t.run = s.run

/-- RTS goes to the pulled address plus one (45_jumps_calls.md; the increment is RTS's own by D17) and changes SP and PC only. -/
def Obligations.ReturnGoesToThePulledAddressPlusOne : Prop :=
  ∀ s : State, HasForm .rts [(.implicit, 0x60)] ∧ exec .rts s = .next { s with
    sp := s.sp + 2
    pc := (s.read (0x0100 + (s.sp + 2).setWidth 16) ++ s.read (0x0100 + (s.sp + 1).setWidth 16)) + 1 }

/-- JSR and a matching RTS: with SP and the two stack bytes as the call left them, RTS comes back to the address after the JSR with SP as
before it (45_jumps_calls.md "Linkage convention", rests on D16, D17). -/
def Obligations.CallThenReturnComesBack : Prop :=
  ∀ (s t u : State) (a : Word), s.mem.wf = true → exec (.jsr a) s = .next t → u.sp = t.sp →
    u.read (stackAddr (t.sp + 1)) = t.read (stackAddr (t.sp + 1)) →
    u.read (stackAddr (t.sp + 2)) = t.read (stackAddr (t.sp + 2)) →
    ∃ v, exec .rts u = .next v ∧ v.pc = s.pc + 3 ∧ v.sp = s.sp

/-- A JSR whose pushes overwrite its own operand bytes still goes to the target that stood there when the step began (20_memory.md, order of
accesses; 45_jumps_calls.md, corner cases). -/
def Obligations.CallTargetIsReadBeforeThePushes : Prop :=
  ∀ s : State, s.run = .running → s.read s.pc = 0x20 →
    ∃ t, step s = .next t ∧ t.pc = s.read (s.pc + 2) ++ s.read (s.pc + 1)

-- Shifts

/-- R170 to R173: the shifts and rotates of A and of memory: result, outgoing carry, Z and N, and nothing else. -/
def Obligations.ShiftsAndRotates : Prop :=
  ∀ (i : Instr) (s : State), s.mem.wf = true → i.op ∈ [.asl, .lsr, .rol, .ror] →
    ∃ v r t, operandByte i s = some v ∧ Completes i s t ∧ operandByte i t = some r ∧
      (i.op = .asl → HasForm i [(.accumulator, 0x0A), (.zeroPage, 0x06), (.zeroPageX, 0x16), (.absolute, 0x0E), (.absoluteX, 0x1E)] ∧
        r = v <<< 1 ∧ t.flag .c = v.getLsbD 7) ∧
      (i.op = .lsr → HasForm i [(.accumulator, 0x4A), (.zeroPage, 0x46), (.zeroPageX, 0x56), (.absolute, 0x4E), (.absoluteX, 0x5E)] ∧
        r = v >>> 1 ∧ t.flag .c = v.getLsbD 0) ∧
      (i.op = .rol → HasForm i [(.accumulator, 0x2A), (.zeroPage, 0x26), (.zeroPageX, 0x36), (.absolute, 0x2E), (.absoluteX, 0x3E)] ∧
        r = v <<< 1 ||| (if s.flag .c then 0x01 else 0x00) ∧ t.flag .c = v.getLsbD 7) ∧
      (i.op = .ror → HasForm i [(.accumulator, 0x6A), (.zeroPage, 0x66), (.zeroPageX, 0x76), (.absolute, 0x6E), (.absoluteX, 0x7E)] ∧
        r = v >>> 1 ||| (if s.flag .c then 0x80 else 0x00) ∧ t.flag .c = v.getLsbD 0) ∧
      ShowsZN r t ∧ RegsKeptBut (if i.mode = .accumulator then [.a] else []) s t ∧ FlagsKeptBut [.c, .z, .n] s t ∧
      MemoryKeptBut (effectiveAddress i s).toList s t

/-- Nine ROLs of a byte restore it and the carry, in A and in every memory mode (46_shifts.md, ROL, corner cases). -/
def Obligations.NineRotatesLeftRestoreByteAndCarry : Prop :=
  ∀ (i : Instr) (s : State), s.mem.wf = true → i.op = .rol →
    ∃ t, execTimes 9 i s = .next t ∧ operandByte i t = operandByte i s ∧ t.flag .c = s.flag .c

-- Stack

/-- R180, R181: PHA and PHP push A and the raw status byte and change no flag. -/
def Obligations.PushesStoreTheRawByte : Prop :=
  ∀ (i : Instr) (s : State), s.mem.wf = true → (i = .pha ∨ i = .php) →
    HasForm i [(.implicit, if i = .pha then 0x48 else 0x08)] ∧ ∃ t, Completes i s t ∧ t.sp = s.sp - 1 ∧
      t.read (0x0100 + s.sp.setWidth 16) = (if i = .pha then s.a else s.p) ∧
      MemoryKeptBut [0x0100 + s.sp.setWidth 16] s t ∧ RegsKeptBut [.sp] s t ∧ t.p = s.p

/-- R182, R183: PLA pulls into A with Z and N from the byte; PLP pulls all eight bits of P. -/
def Obligations.PullsLoadAOrTheStatus : Prop :=
  ∀ s : State,
    let v := s.read (0x0100 + (s.sp + 1).setWidth 16)
    (HasForm .pla [(.implicit, 0x68)] ∧ ∃ t, Completes .pla s t ∧ t.a = v ∧ t.sp = s.sp + 1 ∧ ShowsZN v t ∧
      RegsKeptBut [.a, .sp] s t ∧ FlagsKeptBut [.z, .n] s t ∧ MemoryKeptBut [] s t) ∧
    (HasForm .plp [(.implicit, 0x28)] ∧ ∃ t, Completes .plp s t ∧ t.p = v ∧ t.sp = s.sp + 1 ∧ RegsKeptBut [.sp] s t ∧ MemoryKeptBut [] s t)

/-- PHP then PLP leave P and SP as they were (47_stack.md, PLP, corner cases). -/
def Obligations.PushThenPullStatusRestoresIt : Prop :=
  ∀ s : State, s.mem.wf = true →
    ∃ t u, exec .php s = .next t ∧ exec .plp t = .next u ∧ u.p = s.p ∧ u.sp = s.sp ∧ u.pc = s.pc + 2 ∧
      RegsKeptBut [] s u ∧ MemoryKeptBut [0x0100 + s.sp.setWidth 16] s u

-- Flags and transfers

/-- R190 to R196: each writes its one flag; the other seven, the registers and memory stay. -/
def Obligations.FlagInstructionsWriteOneFlag : Prop :=
  ∀ (i : Instr) (b : Byte) (f : Flag) (v : Bool) (s : State),
    (i, b, f, v) ∈ flagRows →
    HasForm i [(.implicit, b)] ∧ ∃ t, Completes i s t ∧ t.flag f = v ∧ FlagsKeptBut [f] s t ∧ RegsKeptBut [] s t ∧ MemoryKeptBut [] s t

/-- R200 to R205: the transfers copy a register, with Z and N from the value, but for TXS, which writes no flag. -/
def Obligations.TransfersCopyOneRegister : Prop :=
  ∀ s : State,
    (HasForm .tax [(.implicit, 0xAA)] ∧ WritesRegister .tax s .x s.a) ∧
    (HasForm .tay [(.implicit, 0xA8)] ∧ WritesRegister .tay s .y s.a) ∧
    (HasForm .txa [(.implicit, 0x8A)] ∧ WritesRegister .txa s .a s.x) ∧
    (HasForm .tya [(.implicit, 0x98)] ∧ WritesRegister .tya s .a s.y) ∧
    (HasForm .tsx [(.implicit, 0xBA)] ∧ WritesRegister .tsx s .x s.sp) ∧
    HasForm .txs [(.implicit, 0x9A)] ∧ exec .txs s = .next { s with sp := s.x, pc := s.pc + 1 }

-- System

/-- R210: BRK halts with PC at the byte after it; nothing is pushed and no flag but B may change; B is set or not by the open parameter. -/
def Obligations.BreakHaltsTheRun : Prop :=
  ∀ s : State, HasForm .brk [(.implicit, 0x00)] ∧ ∃ t, exec .brk s = .next t ∧ t.run = .halted ∧ t.pc = s.pc + 1 ∧
    t.flag .b = (match Config.brkHaltB with | .set => true | .unchanged => s.flag .b) ∧
    FlagsKeptBut [.b] s t ∧ RegsKeptBut [] s t ∧ t.mem = s.mem

/-- NOP changes PC only (49_system.md; rests on D5). -/
def Obligations.NoOperationOnlyAdvances : Prop :=
  ∀ s : State, HasForm .nop [(.implicit, 0xEA)] ∧ exec .nop s = .next { s with pc := s.pc + 1 }

/-- R212: RTI pulls P, then PC low byte first, with no increment of the address, and changes SP, P and PC only. -/
def Obligations.ReturnFromInterruptRestoresStatusAndPc : Prop :=
  ∀ s : State, HasForm .rti [(.implicit, 0x40)] ∧ exec .rti s = .next { s with
    p := s.read (0x0100 + (s.sp + 1).setWidth 16)
    pc := s.read (0x0100 + (s.sp + 3).setWidth 16) ++ s.read (0x0100 + (s.sp + 2).setWidth 16)
    sp := s.sp + 3 }

-- Whole-machine rules

/-- Only the instructions that 10_state.md lists as writing a register can change it, and a shift changes A only in Accumulator mode. -/
def Obligations.OnlyTheListedInstructionsWriteARegister : Prop :=
  ∀ (i : Instr) (s t : State), exec i s = .next t →
    (t.a ≠ s.a → i.op ∈ [.adc, .sbc, .and, .ora, .eor, .lda, .pla, .txa, .tya] ∨
      (i.op ∈ [.asl, .lsr, .rol, .ror] ∧ i.mode = .accumulator)) ∧
    (t.x ≠ s.x → i.op ∈ [.ldx, .tax, .tsx, .inx, .dex]) ∧
    (t.y ≠ s.y → i.op ∈ [.ldy, .tay, .iny, .dey]) ∧
    (t.sp ≠ s.sp → i.op ∈ [.pha, .php, .pla, .plp, .jsr, .rts, .rti, .txs])

/-- Only the instructions that 10_state.md lists as writing a flag can change it. -/
def Obligations.OnlyTheListedInstructionsWriteAFlag : Prop :=
  ∀ (i : Instr) (s t : State), exec i s = .next t →
    (t.flag .c ≠ s.flag .c → i.op ∈ [.adc, .sbc, .cmp, .cpx, .cpy, .asl, .lsr, .rol, .ror, .clc, .sec, .plp, .rti]) ∧
    (t.flag .z ≠ s.flag .z → i.op ∈ [.adc, .sbc, .and, .ora, .eor, .asl, .lsr, .rol, .ror, .inc, .dec, .inx, .iny, .dex, .dey,
      .lda, .ldx, .ldy, .pla, .tax, .tay, .txa, .tya, .tsx, .cmp, .cpx, .cpy, .bit, .plp, .rti]) ∧
    (t.flag .i ≠ s.flag .i → i.op ∈ [.cli, .sei, .plp, .rti]) ∧
    (t.flag .d ≠ s.flag .d → i.op ∈ [.cld, .sed, .plp, .rti]) ∧
    (t.flag .b ≠ s.flag .b → i.op ∈ [.plp, .rti] ∨ (i.op = .brk ∧ Config.brkHaltB = .set)) ∧
    (t.flag .u ≠ s.flag .u → i.op ∈ [.plp, .rti]) ∧
    (t.flag .v ≠ s.flag .v → i.op ∈ [.adc, .sbc, .bit, .clv, .plp, .rti]) ∧
    (t.flag .n ≠ s.flag .n → i.op ∈ [.adc, .sbc, .and, .ora, .eor, .asl, .lsr, .rol, .ror, .inc, .dec, .inx, .iny, .dex, .dey,
      .lda, .ldx, .ldy, .pla, .tax, .tay, .txa, .tya, .tsx, .cmp, .cpx, .cpy, .bit, .plp, .rti])

/-- Every byte of memory but those at the addresses an instruction stores to reads as before it: all of memory, for an instruction
that stores nothing. -/
def Obligations.OnlyTheStoredBytesChange : Prop :=
  ∀ (i : Instr) (s t : State), s.mem.wf = true → exec i s = .next t → MemoryKeptBut (storedAddresses i s) s t

/-- R94, R95: after an instruction that is no branch, jump, call, return or halt and raises no error, PC has moved by the length its mode
fixes, modulo 65536. -/
def Obligations.PcAdvancesByTheLength : Prop :=
  ∀ (i : Instr) (s : State),
    i.op ∉ [.bcc, .bcs, .beq, .bmi, .bne, .bpl, .bvc, .bvs, .jmp, .jsr, .rts, .rti, .brk] →
    (i.op ∈ [.adc, .sbc] → s.flag .d = false) →
    ∃ t, exec i s = .next t ∧ t.pc = s.pc + BitVec.ofNat 16 i.mode.length ∧
      i.mode.length = (match i.operand with | .none => 1 | .byte _ => 2 | .word _ => 3)

/-- R28, R30, R31: I, B and U are read by PHP alone. Two states that differ at most in one of them go, under any other instruction, to
states that differ at most in it. -/
def Obligations.OnlyPushStatusReadsInterruptBreakAndUnused : Prop :=
  ∀ (i : Instr) (f : Flag) (s s' t : State), i.op ≠ .php → f ∈ [Flag.i, .b, .u] → SameButFlag f s s' →
    exec i s = .next t → ∃ t', exec i s' = .next t' ∧ SameButFlag f t t'

/-- A branch to itself never ends: with `D0 FE` at PC and Z clear, a running block is in the same state after any number of steps
(70_reset_and_hazards.md, non-termination). -/
def Obligations.BranchToItselfNeverEnds : Prop :=
  ∀ (n : Nat) (s : State), s.run = .running → s.read s.pc = 0xD0 → s.read (s.pc + 1) = 0xFE → s.flag .z = false →
    stateAfter n s = s

/-- Once a run has ended, halted or faulted, every later state is the same (R225, R226, R236; that a stopped block's step answers the
same state is log entry 4). -/
def Obligations.EndOfRunIsFinalUntilTheHostActs : Prop :=
  ∀ (s : State) (n m : Nat), n ≤ m → (stateAfter n s).run ≠ .running → stateAfter m s = stateAfter n s

-- The host

/-- The host operations act on a stopped block with the effect of the interface's table, and have no move on a running one (rests on
D9, D10, D19; the refusal is log entry 11). -/
def Obligations.HostActsOnlyOnAStoppedBlock : Prop :=
  (∀ (op : HostOp) (s : State), s.run = .running → hostAct op s = .refused .hostActsWhileRunning) ∧
  (∀ s : State, s.run ≠ .running →
    hostAct .reset s = .next State.reset ∧ hostAct .start s = .next { s with run := .running } ∧
    (∀ r v, ∃ t, hostAct (.setReg r v) s = .next t ∧ t.reg r = v ∧ RegsKeptBut [r] s t ∧
      t.pc = s.pc ∧ t.p = s.p ∧ t.mem = s.mem ∧ t.run = s.run) ∧
    (∀ v, hostAct (.setPc v) s = .next { s with pc := v }) ∧ (∀ v, hostAct (.setP v) s = .next { s with p := v }) ∧
    (∀ f v, ∃ t, hostAct (.setFlag f v) s = .next t ∧ t.flag f = v ∧ FlagsKeptBut [f] s t ∧
      RegsKeptBut [] s t ∧ t.pc = s.pc ∧ t.mem = s.mem ∧ t.run = s.run) ∧
    (∀ addr v, s.mem.wf = true → ∃ t, hostAct (.write addr v) s = .next t ∧ t.read addr = v ∧ MemoryKeptBut [addr] s t ∧
      RegsKeptBut [] s t ∧ t.pc = s.pc ∧ t.p = s.p ∧ t.run = s.run))

/-- The host reads memory and registers of a stopped block only, and reads the run state of any (70_reset_and_hazards.md, the host
interface's table; rests on D19; the refusal is log entry 11). -/
def Obligations.HostReadsOnlyAStoppedBlock : Prop :=
  (∀ s : State, hostStatus s = s.run) ∧
  (∀ s : State, s.run = .running →
    (∀ addr, hostRead addr s = .refused .hostActsWhileRunning ∧ hostRead16 addr s = .refused .hostActsWhileRunning) ∧
    (∀ r, hostGetReg r s = .refused .hostActsWhileRunning) ∧ (∀ f, hostGetFlag f s = .refused .hostActsWhileRunning) ∧
    hostGetPc s = .refused .hostActsWhileRunning ∧ hostGetP s = .refused .hostActsWhileRunning) ∧
  (∀ s : State, s.run ≠ .running →
    (∀ addr, hostRead addr s = .next (s.read addr) ∧ hostRead16 addr s = .next (s.read (addr + 1) ++ s.read addr)) ∧
    (∀ r, hostGetReg r s = .next (s.reg r)) ∧ (∀ f, hostGetFlag f s = .next (s.flag f)) ∧
    hostGetPc s = .next s.pc ∧ hostGetP s = .next s.p)

/-- The boot protocol: a program of at most 65536 bytes stands from its address on, wrapping past 0xFFFF, all other bytes as before, PC at
its address, and the block Running (70_reset_and_hazards.md, Boot and Start of a run; rests on D9, D20). -/
def Obligations.BootLoadsTheProgramAndStarts : Prop :=
  ∀ (addr : Word) (program : List Byte) (s : State), s.mem.wf = true → s.run ≠ .running → program.length ≤ 65536 →
    ∃ t, hostBoot addr program s = .next t ∧ t.pc = addr ∧ t.run = .running ∧ t.p = s.p ∧ RegsKeptBut [] s t ∧
      (∀ k b, program[k]? = some b → t.read (addr + BitVec.ofNat 16 k) = b) ∧
      (∀ a : Word, (∀ k, k < program.length → a ≠ addr + BitVec.ofNat 16 k) → t.read a = s.read a)

/-- `run(n)` on a running block is the host machine's own run of `n` steps, for every budget (R256, R261 with D22; a stopped block's step
answers the same state, log entry 4). -/
def Obligations.BudgetedRunIsTheMachinesRun : Prop :=
  ∀ (n : Nat) (s : State), s.run = .running →
    hostRun n s = .next (stateAfter n s) ∧ Host.Core.run Sys2Proof.core n s = .next (stateAfter n s)

/-- A word placed by `withFetchWord` is the instruction the next step runs (log entry 8). -/
def Obligations.PlacedWordIsTheNextInstruction : Prop :=
  ∀ (s : State) (nbits w : Nat) (i : Instr), s.mem.wf = true → decodeTableWord nbits w = some i →
    step (s.withFetchWord nbits w) = exec i (s.withFetchWord nbits w) ∧ (s.withFetchWord nbits w).pc = s.pc ∧
      (s.withFetchWord nbits w).run = .running
end

