-- ==== Sys2Proof/Laws/Decode.lean ====
section
/-! SUPPORT. Bytes and words, and the opcode map as a table. -/

namespace Sys2Proof

/-- The two bytes of a word make the word again. -/
@[simp] theorem join_bytes (w : Word) : join (hiByte w) (loByte w) = w := by
  apply BitVec.eq_of_getLsbD_eq
  intro j hj
  unfold join hiByte loByte
  simp only [BitVec.getLsbD_append, BitVec.getLsbD_extractLsb']
  by_cases h : j < 8
  · simp [h]
  · simp [h]
    have : j - 8 < 8 := by omega
    simp [this, show 8 + (j - 8) = j by omega]

@[simp] theorem hiByte_join (hi lo : Byte) : hiByte (join hi lo) = hi := by
  unfold join hiByte
  exact BitVec.extractLsb'_append_eq_left

@[simp] theorem loByte_join (hi lo : Byte) : loByte (join hi lo) = lo := by
  unfold join loByte
  exact BitVec.extractLsb'_append_eq_right

/-- No opcode byte has two rows. -/
theorem opcodeTable_opcodes_distinct : (opcodeTable.map (·.opcode)).Pairwise (· ≠ ·) := by decide +kernel

/-- A row that is found has the byte looked up, and is one of the table's. -/
theorem lookupRow_some {b : Byte} {r : OpcodeRow} : ∀ {rows : List OpcodeRow}, lookupRow rows b = some r → r ∈ rows ∧ r.opcode = b
  | [], h => nomatch h
  | q :: rows, h => by
    unfold lookupRow at h
    split at h
    · cases h
      exact ⟨List.mem_cons_self, by assumption⟩
    · exact ⟨List.mem_cons_of_mem _ (lookupRow_some h).1, (lookupRow_some h).2⟩

/-- A byte with no row is no row's byte. -/
theorem lookupRow_none {b : Byte} : ∀ {rows : List OpcodeRow}, lookupRow rows b = none → ∀ r ∈ rows, r.opcode ≠ b
  | [], _ => fun _ h => nomatch h
  | q :: rows, h => by
    unfold lookupRow at h
    split at h
    · cases h
    · intro r hr
      rcases List.mem_cons.mp hr with rfl | hr
      · assumption
      · exact lookupRow_none h r hr

/-- What a row makes of some bytes. -/
theorem RowForm.take_ok {f : RowForm} {bytes rest : List Byte} {i : Instr} (h : f.take bytes = .ok (i, rest)) :
    (f = .implied i ∧ bytes = rest) ∨ (∃ g v, f = .byte g ∧ bytes = v :: rest ∧ i = g v) ∨
      (∃ g lo hi, f = .word g ∧ bytes = lo :: hi :: rest ∧ i = g (join hi lo)) := by
  match f, bytes, h with
  | .implied j, bytes, h =>
    simp only [RowForm.take, Except.ok.injEq, Prod.mk.injEq] at h
    exact .inl ⟨by rw [h.1], h.2⟩
  | .byte g, v :: bs, h =>
    simp only [RowForm.take, Except.ok.injEq, Prod.mk.injEq] at h
    exact .inr (.inl ⟨g, v, rfl, by rw [h.2], h.1.symm⟩)
  | .word g, lo :: hi :: bs, h =>
    simp only [RowForm.take, Except.ok.injEq, Prod.mk.injEq] at h
    exact .inr (.inr ⟨g, lo, hi, rfl, by rw [h.2], h.1.symm⟩)

/-- Three bytes are enough for every row. -/
theorem RowForm.take_three (f : RowForm) (a b : Byte) : ∃ i rest, f.take [a, b] = .ok (i, rest) := by
  cases f <;> exact ⟨_, _, rfl⟩

/-- Decoding an opcode byte with a row is what the row makes of the rest. -/
theorem decode_of_lookup {b : Byte} {r : OpcodeRow} (h : lookupRow opcodeTable b = some r) (rest : List Byte) :
    decode (b :: rest) = r.form.take rest := by
  simp [decode, h]

/-- The instruction a row makes has the row's opcode byte and mode, and its operand is the field it was made of. -/
def OpcodeRow.Fits (r : OpcodeRow) : Prop :=
  match r.form with
  | .implied i => i.opcode = r.opcode ∧ i.mode = r.mode ∧ i.operand = .none
  | .byte g => ∀ v, (g v).opcode = r.opcode ∧ (g v).mode = r.mode ∧ (g v).operand = .byte v
  | .word g => ∀ v, (g v).opcode = r.opcode ∧ (g v).mode = r.mode ∧ (g v).operand = .word v

/-- Every row of the opcode map fits its instruction. -/
theorem opcodeTable_fits : ∀ r ∈ opcodeTable, r.Fits := by
  simp only [opcodeTable, List.mem_append, or_imp, forall_and]
  refine ⟨⟨⟨⟨⟨⟨⟨⟨⟨⟨?_, ?_⟩, ?_⟩, ?_⟩, ?_⟩, ?_⟩, ?_⟩, ?_⟩, ?_⟩, ?_⟩, ?_⟩ <;> intro r hr <;>
    (repeat' (rcases List.mem_cons.mp hr with rfl | hr; first | exact fun _ => ⟨rfl, rfl, rfl⟩ | exact ⟨rfl, rfl, rfl⟩)) <;>
    cases hr

end Sys2Proof
end

