-- ==== Sys2Proof/Laws/Flags.lean ====
section
/-! SUPPORT. The flags of `P`: what a flag write and each flag computation leave in every flag (10_state.md R25, R34). -/

namespace Sys2Proof.Machine

theorem flagBit_lt (f : Flag) : flagBit f < 8 := by cases f <;> decide

/-- Two flags are one bit only if they are one flag. -/
theorem flagBit_inj {f g : Flag} (h : flagBit f = flagBit g) : f = g := by cases f <;> cases g <;> first | rfl | cases h

/-- Writing a flag sets it and leaves the other seven (R34). -/
@[simp] theorem getFlag_setFlag (p : Byte) (f g : Flag) (v : Bool) :
    getFlag (setFlag p f v) g = if g = f then v else getFlag p g := by
  cases v <;> cases f <;> cases g <;> simp [getFlag, setFlag, flagMask, flagBit]

@[simp] theorem getFlag_setZN (p v : Byte) (f : Flag) :
    getFlag (setZN p v) f = if f = .n then bit7 v else if f = .z then v == 0 else getFlag p f := by
  simp [setZN]

@[simp] theorem getFlag_addFlags (p r : Byte) (c v : Bool) (f : Flag) :
    getFlag (addFlags p r c v) f =
      if f = .n then bit7 r else if f = .z then r == 0 else if f = .v then v else if f = .c then c else getFlag p f := by
  simp [addFlags]

@[simp] theorem getFlag_compareFlags (p reg m : Byte) (f : Flag) :
    getFlag (compareFlags p reg m) f =
      if f = .n then bit7 (reg - m) else if f = .z then reg == m else if f = .c then decide (m.toNat ≤ reg.toNat)
      else getFlag p f := by
  simp [compareFlags]

@[simp] theorem getFlag_bitFlags (p a m : Byte) (f : Flag) :
    getFlag (bitFlags p a m) f =
      if f = .v then m.getLsbD 6 else if f = .n then bit7 m else if f = .z then (a &&& m) == 0 else getFlag p f := by
  simp [bitFlags]

@[simp] theorem getFlag_shiftFlags (p : Byte) (r : Byte × Bool) (f : Flag) :
    getFlag (shiftFlags p r) f =
      if f = .n then bit7 r.1 else if f = .z then r.1 == 0 else if f = .c then r.2 else getFlag p f := by
  simp [shiftFlags]

/-- Two status bytes with the same flags are one byte. -/
theorem eq_of_getFlag {p q : Byte} (h : ∀ f, getFlag p f = getFlag q f) : p = q := by
  apply BitVec.eq_of_getLsbD_eq
  intro j hj
  have hc := h .c; have hz := h .z; have hi := h .i; have hd := h .d
  have hb := h .b; have hu := h .u; have hv := h .v; have hn := h .n
  simp only [getFlag, flagBit] at *
  interval_cases j <;> assumption

end Sys2Proof.Machine
end

