-- ==== Sys2Proof/Laws/State.lean ====
section
/-! SUPPORT. Each update of State, field by field, so that no proof unfolds a record update. -/

namespace Sys2Proof.Machine

@[simp] theorem State.setA_a (s : State) (v : Byte) : (s.setA v).a = v := rfl
@[simp] theorem State.setA_x (s : State) (v : Byte) : (s.setA v).x = s.x := rfl
@[simp] theorem State.setA_y (s : State) (v : Byte) : (s.setA v).y = s.y := rfl
@[simp] theorem State.setA_sp (s : State) (v : Byte) : (s.setA v).sp = s.sp := rfl
@[simp] theorem State.setA_pc (s : State) (v : Byte) : (s.setA v).pc = s.pc := rfl
@[simp] theorem State.setA_p (s : State) (v : Byte) : (s.setA v).p = s.p := rfl
@[simp] theorem State.setA_mem (s : State) (v : Byte) : (s.setA v).mem = s.mem := rfl
@[simp] theorem State.setA_run (s : State) (v : Byte) : (s.setA v).run = s.run := rfl

@[simp] theorem State.setX_a (s : State) (v : Byte) : (s.setX v).a = s.a := rfl
@[simp] theorem State.setX_x (s : State) (v : Byte) : (s.setX v).x = v := rfl
@[simp] theorem State.setX_y (s : State) (v : Byte) : (s.setX v).y = s.y := rfl
@[simp] theorem State.setX_sp (s : State) (v : Byte) : (s.setX v).sp = s.sp := rfl
@[simp] theorem State.setX_pc (s : State) (v : Byte) : (s.setX v).pc = s.pc := rfl
@[simp] theorem State.setX_p (s : State) (v : Byte) : (s.setX v).p = s.p := rfl
@[simp] theorem State.setX_mem (s : State) (v : Byte) : (s.setX v).mem = s.mem := rfl
@[simp] theorem State.setX_run (s : State) (v : Byte) : (s.setX v).run = s.run := rfl

@[simp] theorem State.setY_a (s : State) (v : Byte) : (s.setY v).a = s.a := rfl
@[simp] theorem State.setY_x (s : State) (v : Byte) : (s.setY v).x = s.x := rfl
@[simp] theorem State.setY_y (s : State) (v : Byte) : (s.setY v).y = v := rfl
@[simp] theorem State.setY_sp (s : State) (v : Byte) : (s.setY v).sp = s.sp := rfl
@[simp] theorem State.setY_pc (s : State) (v : Byte) : (s.setY v).pc = s.pc := rfl
@[simp] theorem State.setY_p (s : State) (v : Byte) : (s.setY v).p = s.p := rfl
@[simp] theorem State.setY_mem (s : State) (v : Byte) : (s.setY v).mem = s.mem := rfl
@[simp] theorem State.setY_run (s : State) (v : Byte) : (s.setY v).run = s.run := rfl

@[simp] theorem State.setSp_a (s : State) (v : Byte) : (s.setSp v).a = s.a := rfl
@[simp] theorem State.setSp_x (s : State) (v : Byte) : (s.setSp v).x = s.x := rfl
@[simp] theorem State.setSp_y (s : State) (v : Byte) : (s.setSp v).y = s.y := rfl
@[simp] theorem State.setSp_sp (s : State) (v : Byte) : (s.setSp v).sp = v := rfl
@[simp] theorem State.setSp_pc (s : State) (v : Byte) : (s.setSp v).pc = s.pc := rfl
@[simp] theorem State.setSp_p (s : State) (v : Byte) : (s.setSp v).p = s.p := rfl
@[simp] theorem State.setSp_mem (s : State) (v : Byte) : (s.setSp v).mem = s.mem := rfl
@[simp] theorem State.setSp_run (s : State) (v : Byte) : (s.setSp v).run = s.run := rfl

@[simp] theorem State.setPc_a (s : State) (v : Word) : (s.setPc v).a = s.a := rfl
@[simp] theorem State.setPc_x (s : State) (v : Word) : (s.setPc v).x = s.x := rfl
@[simp] theorem State.setPc_y (s : State) (v : Word) : (s.setPc v).y = s.y := rfl
@[simp] theorem State.setPc_sp (s : State) (v : Word) : (s.setPc v).sp = s.sp := rfl
@[simp] theorem State.setPc_pc (s : State) (v : Word) : (s.setPc v).pc = v := rfl
@[simp] theorem State.setPc_p (s : State) (v : Word) : (s.setPc v).p = s.p := rfl
@[simp] theorem State.setPc_mem (s : State) (v : Word) : (s.setPc v).mem = s.mem := rfl
@[simp] theorem State.setPc_run (s : State) (v : Word) : (s.setPc v).run = s.run := rfl

@[simp] theorem State.setP_a (s : State) (v : Byte) : (s.setP v).a = s.a := rfl
@[simp] theorem State.setP_x (s : State) (v : Byte) : (s.setP v).x = s.x := rfl
@[simp] theorem State.setP_y (s : State) (v : Byte) : (s.setP v).y = s.y := rfl
@[simp] theorem State.setP_sp (s : State) (v : Byte) : (s.setP v).sp = s.sp := rfl
@[simp] theorem State.setP_pc (s : State) (v : Byte) : (s.setP v).pc = s.pc := rfl
@[simp] theorem State.setP_p (s : State) (v : Byte) : (s.setP v).p = v := rfl
@[simp] theorem State.setP_mem (s : State) (v : Byte) : (s.setP v).mem = s.mem := rfl
@[simp] theorem State.setP_run (s : State) (v : Byte) : (s.setP v).run = s.run := rfl

@[simp] theorem State.setRun_a (s : State) (r : RunState) : (s.setRun r).a = s.a := rfl
@[simp] theorem State.setRun_x (s : State) (r : RunState) : (s.setRun r).x = s.x := rfl
@[simp] theorem State.setRun_y (s : State) (r : RunState) : (s.setRun r).y = s.y := rfl
@[simp] theorem State.setRun_sp (s : State) (r : RunState) : (s.setRun r).sp = s.sp := rfl
@[simp] theorem State.setRun_pc (s : State) (r : RunState) : (s.setRun r).pc = s.pc := rfl
@[simp] theorem State.setRun_p (s : State) (r : RunState) : (s.setRun r).p = s.p := rfl
@[simp] theorem State.setRun_mem (s : State) (r : RunState) : (s.setRun r).mem = s.mem := rfl
@[simp] theorem State.setRun_run (s : State) (r : RunState) : (s.setRun r).run = r := rfl

@[simp] theorem State.setFlag_a (s : State) (f : Flag) (v : Bool) : (s.setFlag f v).a = s.a := rfl
@[simp] theorem State.setFlag_x (s : State) (f : Flag) (v : Bool) : (s.setFlag f v).x = s.x := rfl
@[simp] theorem State.setFlag_y (s : State) (f : Flag) (v : Bool) : (s.setFlag f v).y = s.y := rfl
@[simp] theorem State.setFlag_sp (s : State) (f : Flag) (v : Bool) : (s.setFlag f v).sp = s.sp := rfl
@[simp] theorem State.setFlag_pc (s : State) (f : Flag) (v : Bool) : (s.setFlag f v).pc = s.pc := rfl
@[simp] theorem State.setFlag_p (s : State) (f : Flag) (v : Bool) : (s.setFlag f v).p = Machine.setFlag s.p f v := rfl
@[simp] theorem State.setFlag_mem (s : State) (f : Flag) (v : Bool) : (s.setFlag f v).mem = s.mem := rfl
@[simp] theorem State.setFlag_run (s : State) (f : Flag) (v : Bool) : (s.setFlag f v).run = s.run := rfl

@[simp] theorem State.write_a (s : State) (addr : Word) (v : Byte) : (s.write addr v).a = s.a := rfl
@[simp] theorem State.write_x (s : State) (addr : Word) (v : Byte) : (s.write addr v).x = s.x := rfl
@[simp] theorem State.write_y (s : State) (addr : Word) (v : Byte) : (s.write addr v).y = s.y := rfl
@[simp] theorem State.write_sp (s : State) (addr : Word) (v : Byte) : (s.write addr v).sp = s.sp := rfl
@[simp] theorem State.write_pc (s : State) (addr : Word) (v : Byte) : (s.write addr v).pc = s.pc := rfl
@[simp] theorem State.write_p (s : State) (addr : Word) (v : Byte) : (s.write addr v).p = s.p := rfl
@[simp] theorem State.write_mem (s : State) (addr : Word) (v : Byte) : (s.write addr v).mem = Memory.insert s.mem addr.toNat v := rfl
@[simp] theorem State.write_run (s : State) (addr : Word) (v : Byte) : (s.write addr v).run = s.run := rfl

@[simp] theorem State.atDispatch_a (s : State) : (s.atDispatch).a = s.a := rfl
@[simp] theorem State.atDispatch_x (s : State) : (s.atDispatch).x = s.x := rfl
@[simp] theorem State.atDispatch_y (s : State) : (s.atDispatch).y = s.y := rfl
@[simp] theorem State.atDispatch_sp (s : State) : (s.atDispatch).sp = s.sp := rfl
@[simp] theorem State.atDispatch_pc (s : State) : (s.atDispatch).pc = s.pc + 1 := rfl
@[simp] theorem State.atDispatch_p (s : State) : (s.atDispatch).p = s.p := rfl
@[simp] theorem State.atDispatch_mem (s : State) : (s.atDispatch).mem = s.mem := rfl
@[simp] theorem State.atDispatch_run (s : State) : (s.atDispatch).run = s.run := rfl

@[simp] theorem State.advance_a (s : State) (m : Mode) : (s.advance m).a = s.a := rfl
@[simp] theorem State.advance_x (s : State) (m : Mode) : (s.advance m).x = s.x := rfl
@[simp] theorem State.advance_y (s : State) (m : Mode) : (s.advance m).y = s.y := rfl
@[simp] theorem State.advance_sp (s : State) (m : Mode) : (s.advance m).sp = s.sp := rfl
@[simp] theorem State.advance_pc (s : State) (m : Mode) : (s.advance m).pc = s.pc + BitVec.ofNat 16 (m.length - 1) := rfl
@[simp] theorem State.advance_p (s : State) (m : Mode) : (s.advance m).p = s.p := rfl
@[simp] theorem State.advance_mem (s : State) (m : Mode) : (s.advance m).mem = s.mem := rfl
@[simp] theorem State.advance_run (s : State) (m : Mode) : (s.advance m).run = s.run := rfl

@[simp] theorem State.setReg_pc (s : State) (r : Reg) (v : Byte) : (s.setReg r v).pc = s.pc := by cases r <;> rfl
@[simp] theorem State.setReg_p (s : State) (r : Reg) (v : Byte) : (s.setReg r v).p = s.p := by cases r <;> rfl
@[simp] theorem State.setReg_mem (s : State) (r : Reg) (v : Byte) : (s.setReg r v).mem = s.mem := by cases r <;> rfl
@[simp] theorem State.setReg_run (s : State) (r : Reg) (v : Byte) : (s.setReg r v).run = s.run := by cases r <;> rfl

@[simp] theorem State.setReg_reg (s : State) (r q : Reg) (v : Byte) :
    (s.setReg r v).reg q = if q = r then v else s.reg q := by cases r <;> cases q <;> rfl

@[simp] theorem State.setRegZN_pc (s : State) (r : Reg) (v : Byte) : (s.setRegZN r v).pc = s.pc := by cases r <;> rfl
@[simp] theorem State.setRegZN_p (s : State) (r : Reg) (v : Byte) : (s.setRegZN r v).p = setZN s.p v := by cases r <;> rfl
@[simp] theorem State.setRegZN_mem (s : State) (r : Reg) (v : Byte) : (s.setRegZN r v).mem = s.mem := by cases r <;> rfl
@[simp] theorem State.setRegZN_run (s : State) (r : Reg) (v : Byte) : (s.setRegZN r v).run = s.run := by cases r <;> rfl

@[simp] theorem State.setRegZN_reg (s : State) (r q : Reg) (v : Byte) :
    (s.setRegZN r v).reg q = if q = r then v else s.reg q := by cases r <;> cases q <;> rfl

@[simp] theorem State.reg_a (s : State) : s.reg .a = s.a := rfl
@[simp] theorem State.reg_x (s : State) : s.reg .x = s.x := rfl
@[simp] theorem State.reg_y (s : State) : s.reg .y = s.y := rfl
@[simp] theorem State.reg_sp (s : State) : s.reg .sp = s.sp := rfl

@[simp] theorem State.setA_read (s : State) (v : Byte) (b : Word) : (s.setA v).read b = s.read b := rfl
@[simp] theorem State.setX_read (s : State) (v : Byte) (b : Word) : (s.setX v).read b = s.read b := rfl
@[simp] theorem State.setY_read (s : State) (v : Byte) (b : Word) : (s.setY v).read b = s.read b := rfl
@[simp] theorem State.setSp_read (s : State) (v : Byte) (b : Word) : (s.setSp v).read b = s.read b := rfl
@[simp] theorem State.setPc_read (s : State) (v : Word) (b : Word) : (s.setPc v).read b = s.read b := rfl
@[simp] theorem State.setP_read (s : State) (v : Byte) (b : Word) : (s.setP v).read b = s.read b := rfl
@[simp] theorem State.setRun_read (s : State) (r : RunState) (b : Word) : (s.setRun r).read b = s.read b := rfl
@[simp] theorem State.setFlag_read (s : State) (f : Flag) (v : Bool) (b : Word) : (s.setFlag f v).read b = s.read b := rfl
@[simp] theorem State.atDispatch_read (s : State) (b : Word) : (s.atDispatch).read b = s.read b := rfl
@[simp] theorem State.advance_read (s : State) (m : Mode) (b : Word) : (s.advance m).read b = s.read b := rfl
@[simp] theorem State.setReg_read (s : State) (r : Reg) (v : Byte) (b : Word) : (s.setReg r v).read b = s.read b := by
  cases r <;> rfl
@[simp] theorem State.setRegZN_read (s : State) (r : Reg) (v : Byte) (b : Word) : (s.setRegZN r v).read b = s.read b := by
  cases r <;> rfl

@[simp] theorem State.setA_flag (s : State) (v : Byte) (f : Flag) : (s.setA v).flag f = s.flag f := rfl
@[simp] theorem State.setX_flag (s : State) (v : Byte) (f : Flag) : (s.setX v).flag f = s.flag f := rfl
@[simp] theorem State.setY_flag (s : State) (v : Byte) (f : Flag) : (s.setY v).flag f = s.flag f := rfl
@[simp] theorem State.setSp_flag (s : State) (v : Byte) (f : Flag) : (s.setSp v).flag f = s.flag f := rfl
@[simp] theorem State.setPc_flag (s : State) (v : Word) (f : Flag) : (s.setPc v).flag f = s.flag f := rfl
@[simp] theorem State.setRun_flag (s : State) (r : RunState) (f : Flag) : (s.setRun r).flag f = s.flag f := rfl
@[simp] theorem State.write_flag (s : State) (addr : Word) (v : Byte) (f : Flag) : (s.write addr v).flag f = s.flag f := rfl
@[simp] theorem State.atDispatch_flag (s : State) (f : Flag) : (s.atDispatch).flag f = s.flag f := rfl
@[simp] theorem State.advance_flag (s : State) (m : Mode) (f : Flag) : (s.advance m).flag f = s.flag f := rfl
@[simp] theorem State.setP_flag (s : State) (v : Byte) (f : Flag) : (s.setP v).flag f = getFlag v f := rfl

/-- Two states with the same fields are one state. -/
theorem State.ext_fields {s t : State} (ha : s.a = t.a) (hx : s.x = t.x) (hy : s.y = t.y) (hsp : s.sp = t.sp) (hpc : s.pc = t.pc)
    (hp : s.p = t.p) (hm : s.mem = t.mem) (hr : s.run = t.run) : s = t := by
  cases s; cases t; simp_all

end Sys2Proof.Machine
end

