-- ==== Sys2Proof/Laws/Memory.lean ====
section
/-! SUPPORT. Memory: every operation keeps the canonical form, and a read after a write (20_memory.md R51, R52). -/

namespace Sys2Proof.Machine

theorem Memory.wfFrom_le {lo lo' : Nat} (h : lo' ≤ lo) : ∀ {m : Memory}, Memory.wfFrom lo m = true → Memory.wfFrom lo' m = true
  | [], _ => rfl
  | (k, v) :: m, hm => by
    simp only [Memory.wfFrom, Bool.and_eq_true, decide_eq_true_eq] at hm ⊢
    exact ⟨⟨⟨h.trans hm.1.1.1, hm.1.1.2⟩, hm.1.2⟩, hm.2⟩

/-- Inserting at an address from `lo` up keeps memory canonical from `lo`. -/
theorem Memory.wfFrom_insert (a : Nat) (v : Byte) (ha : a < 65536) :
    ∀ (m : Memory) (lo : Nat), lo ≤ a → Memory.wfFrom lo m = true → Memory.wfFrom lo (Memory.insert m a v) = true
  | [], lo, hlo, _ => by
    unfold Memory.insert
    split
    · rfl
    · simp_all [Memory.wfFrom]
  | (k, w) :: m, lo, hlo, hm => by
    simp only [Memory.wfFrom, Bool.and_eq_true, decide_eq_true_eq] at hm
    obtain ⟨⟨⟨hk, hk'⟩, hw⟩, hm⟩ := hm
    unfold Memory.insert
    split
    · split <;> simp_all [Memory.wfFrom]
    · split
      · split
        · exact Memory.wfFrom_le (by omega) hm
        · simp_all [Memory.wfFrom]
      · have := Memory.wfFrom_insert a v ha m (k + 1) (by omega) hm
        simp_all [Memory.wfFrom]

theorem Memory.wf_insert {m : Memory} (h : m.wf = true) (a : Word) (v : Byte) : (Memory.insert m a.toNat v).wf = true :=
  Memory.wfFrom_insert a.toNat v a.isLt m 0 (Nat.zero_le _) h

/-- A memory write keeps the canonical form. -/
theorem State.write_wf {s : State} (h : s.mem.wf = true) (a : Word) (v : Byte) : (s.write a v).mem.wf = true :=
  Memory.wf_insert h a v

theorem Memory.wf_nil : Memory.wf [] = true := rfl

theorem Memory.lookup_of_lt {a lo : Nat} (h : a < lo) : ∀ {m : Memory}, Memory.wfFrom lo m = true → Memory.lookup m a = unlistedByte
  | [], _ => rfl
  | (k, v) :: m, hm => by
    simp only [Memory.wfFrom, Bool.and_eq_true, decide_eq_true_eq] at hm
    have hk : k ≠ a := by omega
    simp [Memory.lookup, hk, Memory.lookup_of_lt (a := a) (lo := k + 1) (by omega) hm.2]

/-- Read after write on the list itself, for a canonical memory. -/
theorem Memory.lookup_insert (a b : Nat) (v : Byte) :
    ∀ (m : Memory) (lo : Nat), Memory.wfFrom lo m = true →
      Memory.lookup (Memory.insert m a v) b = if b = a then v else Memory.lookup m b
  | [], lo, _ => by
    unfold Memory.insert
    by_cases hb : a = b
    · subst hb
      split <;> simp_all [Memory.lookup]
    · split <;> simp [Memory.lookup, hb, Ne.symm hb]
  | (k, w) :: m, lo, hm => by
    simp only [Memory.wfFrom, Bool.and_eq_true, decide_eq_true_eq] at hm
    obtain ⟨⟨⟨hk, hk'⟩, hw⟩, hm⟩ := hm
    have hlt : ∀ c, c < k + 1 → Memory.lookup m c = unlistedByte := fun c hc => Memory.lookup_of_lt hc hm
    unfold Memory.insert
    split
    · split
      · by_cases hb : b = a
        · subst hb
          rw [if_pos rfl, Memory.lookup, if_neg (by omega), hlt b (by omega)]
          exact (by assumption : v = unlistedByte).symm
        · simp [hb]
      · by_cases hb : b = a
        · simp [Memory.lookup, hb]
        · simp [Memory.lookup, hb, Ne.symm hb]
    · split
      · subst_vars
        split
        · by_cases hb : b = k
          · subst hb
            rw [if_pos rfl, hlt b (by omega)]
            exact (by assumption : v = unlistedByte).symm
          · simp [Memory.lookup, hb, Ne.symm hb]
        · by_cases hb : b = k
          · simp [Memory.lookup, hb]
          · simp [Memory.lookup, hb, Ne.symm hb]
      · by_cases hb : k = b
        · subst hb
          rw [if_neg (by omega)]
          simp [Memory.lookup]
        · simp [Memory.lookup, hb, Memory.lookup_insert a b v m (k + 1) hm]

/-- Two canonical memories that read alike everywhere are one list: equal memories are equal data. -/
theorem Memory.eq_of_lookup : ∀ (m m' : Memory) (lo : Nat), Memory.wfFrom lo m = true → Memory.wfFrom lo m' = true →
    (∀ a, Memory.lookup m a = Memory.lookup m' a) → m = m'
  | [], [], _, _, _, _ => rfl
  | [], (k, v) :: m', lo, _, h', h => by
    simp only [Memory.wfFrom, Bool.and_eq_true, decide_eq_true_eq] at h'
    exact absurd (by simpa [Memory.lookup] using (h k).symm) h'.1.2
  | (k, v) :: m, [], lo, hm, _, h => by
    simp only [Memory.wfFrom, Bool.and_eq_true, decide_eq_true_eq] at hm
    exact absurd (by simpa [Memory.lookup] using h k) hm.1.2
  | (k, v) :: m, (k', v') :: m', lo, hm, hm', h => by
    simp only [Memory.wfFrom, Bool.and_eq_true, decide_eq_true_eq] at hm hm'
    obtain ⟨⟨⟨-, -⟩, hv⟩, hm⟩ := hm
    obtain ⟨⟨⟨-, -⟩, hv'⟩, hm'⟩ := hm'
    have hk : k = k' := by
      have h1 := h k
      have h2 := h k'
      rcases Nat.lt_trichotomy k k' with hlt | heq | hlt
      · rw [Memory.lookup, if_pos rfl, Memory.lookup, if_neg (by omega), Memory.lookup_of_lt (by omega) hm'] at h1
        exact absurd h1 hv
      · exact heq
      · rw [Memory.lookup, if_neg (by omega), Memory.lookup, if_pos rfl, Memory.lookup_of_lt (by omega) hm] at h2
        exact absurd h2.symm hv'
    subst hk
    have hvv : v = v' := by simpa [Memory.lookup] using h k
    have : m = m' := by
      refine Memory.eq_of_lookup m m' (k + 1) hm hm' fun a => ?_
      by_cases ha : k = a
      · subst ha
        rw [Memory.lookup_of_lt (by omega) hm, Memory.lookup_of_lt (by omega) hm']
      · simpa [Memory.lookup, ha] using h a
    rw [hvv, this]

end Sys2Proof.Machine
end

