-- ==== Sys2Proof/Laws/Ops.lean ====
section
/-! SUPPORT. The shared operations: what each can do, said once. -/

namespace Sys2Proof.Machine

/-- A read after a write, on a canonical memory (20_memory.md R51, R52). -/
theorem State.read_write {s : State} (h : s.mem.wf = true) (a b : Word) (v : Byte) :
    (s.write a v).read b = if b = a then v else s.read b := by
  have := Memory.lookup_insert a.toNat b.toNat v s.mem 0 h
  simp only [State.read, State.write_mem, this, BitVec.toNat_inj]

@[simp] theorem push_a (v : Byte) (s : State) : (push v s).a = s.a := rfl
@[simp] theorem push_x (v : Byte) (s : State) : (push v s).x = s.x := rfl
@[simp] theorem push_y (v : Byte) (s : State) : (push v s).y = s.y := rfl
@[simp] theorem push_sp (v : Byte) (s : State) : (push v s).sp = s.sp - 1 := rfl
@[simp] theorem push_pc (v : Byte) (s : State) : (push v s).pc = s.pc := rfl
@[simp] theorem push_p (v : Byte) (s : State) : (push v s).p = s.p := rfl
@[simp] theorem push_run (v : Byte) (s : State) : (push v s).run = s.run := rfl
@[simp] theorem push_mem (v : Byte) (s : State) : (push v s).mem = (s.write (stackAddr s.sp) v).mem := rfl
@[simp] theorem push_read (v : Byte) (s : State) (a : Word) : (push v s).read a = (s.write (stackAddr s.sp) v).read a := rfl
@[simp] theorem push_flag (v : Byte) (s : State) (f : Flag) : (push v s).flag f = s.flag f := rfl

@[simp] theorem pulled_a (s : State) : (pulled s).a = s.a := rfl
@[simp] theorem pulled_x (s : State) : (pulled s).x = s.x := rfl
@[simp] theorem pulled_y (s : State) : (pulled s).y = s.y := rfl
@[simp] theorem pulled_sp (s : State) : (pulled s).sp = s.sp + 1 := rfl
@[simp] theorem pulled_pc (s : State) : (pulled s).pc = s.pc := rfl
@[simp] theorem pulled_p (s : State) : (pulled s).p = s.p := rfl
@[simp] theorem pulled_mem (s : State) : (pulled s).mem = s.mem := rfl
@[simp] theorem pulled_run (s : State) : (pulled s).run = s.run := rfl
@[simp] theorem pulled_read (s : State) (a : Word) : (pulled s).read a = s.read a := rfl
@[simp] theorem pulled_flag (s : State) (f : Flag) : (pulled s).flag f = s.flag f := rfl

/-- Distinct stack pointers are distinct stack addresses (R59). -/
theorem stackAddr_inj {a b : Byte} (h : stackAddr a = stackAddr b) : a = b := by
  unfold stackAddr stackBase zext16 at h
  bv_omega

/-- What a push is pulled back as, with the stack pointer restored (R57, R58). -/
theorem pullByte_push {s : State} (h : s.mem.wf = true) (v : Byte) : pullByte (push v s) = v := by
  simp [pullByte, State.read_write h]

/-- An ordinary instruction answers exactly this state. -/
theorem ordinary_next {m : Mode} {body : State → State} {s t : State} :
    ordinary m body s = .next t ↔ t = (body s.atDispatch).advance m := by
  simp [ordinary, eq_comm]

/-- A jump/call answers exactly this state. -/
theorem jumpCall_next {body : State → State} {s t : State} : jumpCall body s = .next t ↔ t = body s.atDispatch := by
  simp [jumpCall, eq_comm]

/-- Raising an error answers the state with only `run` changed (R224). -/
theorem raiseError_next {k : ErrorKind} {b : Byte} {s t : State} :
    raiseError k b s = .next t ↔ t = s.setRun (.faulted ⟨k, b, s.pc⟩) := by
  simp [raiseError, eq_comm]

/-- The halt's state but for the B flag, which the open parameter decides (R210). -/
theorem haltAt_next {hb : BrkHaltB} {s t : State} (h : haltAt hb s = .next t) :
    t.a = s.a ∧ t.x = s.x ∧ t.y = s.y ∧ t.sp = s.sp ∧ t.pc = s.pc + 1 ∧ t.mem = s.mem ∧ t.run = .halted ∧
      (∀ f, f ≠ .b → t.flag f = s.flag f) ∧ t.flag .b = (s.flag .b || decide (hb = .set)) := by
  cases hb <;> simp only [haltAt, Host.Outcome.next.injEq] at h <;> subst h
  · simp [State.flag]
  · refine ⟨rfl, rfl, rfl, rfl, rfl, rfl, rfl, fun f hf => ?_, ?_⟩ <;> simp_all [State.flag]

/-- PC at dispatch plus the generic advance is PC plus the length (R94). -/
@[simp] theorem advance_pc (pc : Word) (m : Mode) :
    pc + 1 + BitVec.ofNat 16 (m.length - 1) = pc + BitVec.ofNat 16 m.length := by
  cases m <;> simp [Mode.length, BitVec.add_assoc]

/-- The high pointer byte under the reference value (30_encoding.md R90). -/
theorem hiAddr_linear (p : Byte) : hiAddr .linear p = zext16 p + 1 := by
  unfold hiAddr
  split
  · subst_vars; rfl
  · rfl

/-- The high pointer byte under the other value (R90). -/
theorem hiAddr_page (p : Byte) : hiAddr .page p = zext16 (p + 1) := by
  unfold hiAddr
  split
  · subst_vars; rfl
  · unfold zext16
    bv_omega

end Sys2Proof.Machine
end

