-- ==== Sys2Proof/Laws/Exec.lean ====
section
/-! SUPPORT. What `exec` does with each mnemonic, whatever its form: the shared operation it calls, on the operand byte or effective
address its mode resolves. Later proofs cite `exec_by_op` instead of the 151 arms. -/

namespace Sys2Proof.Machine

/-- A shift or rotate `f`: of A in Accumulator mode, of the byte at the effective address otherwise. -/
def ShiftForm (f : Byte → Byte × Bool) (i : Instr) (s : State) : Prop :=
  (i.mode = .accumulator ∧ effectiveAddress i s = none ∧ exec i s = shiftA f s) ∨
    (i.mode ≠ .accumulator ∧ ∃ ea, effectiveAddress i s = some ea ∧ exec i s = shiftMem f i.mode ea s)

/-- The meaning of an instruction by its mnemonic. -/
def ExecByOp (i : Instr) (s : State) : Prop :=
  match i.op with
  | .adc => ∃ m, operandByte i s = some m ∧ exec i s = adc Config.decimalPolicy i.opcode i.mode m s
  | .sbc => ∃ m, operandByte i s = some m ∧ exec i s = sbc Config.decimalPolicy i.opcode i.mode m s
  | .cmp => ∃ m, operandByte i s = some m ∧ exec i s = compareReg .a i.mode m s
  | .cpx => ∃ m, operandByte i s = some m ∧ exec i s = compareReg .x i.mode m s
  | .cpy => ∃ m, operandByte i s = some m ∧ exec i s = compareReg .y i.mode m s
  | .and => ∃ m, operandByte i s = some m ∧ exec i s = logic (· &&& ·) i.mode m s
  | .ora => ∃ m, operandByte i s = some m ∧ exec i s = logic (· ||| ·) i.mode m s
  | .eor => ∃ m, operandByte i s = some m ∧ exec i s = logic (· ^^^ ·) i.mode m s
  | .bit => ∃ m, operandByte i s = some m ∧ exec i s = bitTest i.mode m s
  | .lda => ∃ m, operandByte i s = some m ∧ exec i s = load .a i.mode m s
  | .ldx => ∃ m, operandByte i s = some m ∧ exec i s = load .x i.mode m s
  | .ldy => ∃ m, operandByte i s = some m ∧ exec i s = load .y i.mode m s
  | .sta => ∃ ea, effectiveAddress i s = some ea ∧ exec i s = store .a i.mode ea s
  | .stx => ∃ ea, effectiveAddress i s = some ea ∧ exec i s = store .x i.mode ea s
  | .sty => ∃ ea, effectiveAddress i s = some ea ∧ exec i s = store .y i.mode ea s
  | .bcc => ∃ d, i = .bcc d ∧ exec i s = branch .c false d s
  | .bcs => ∃ d, i = .bcs d ∧ exec i s = branch .c true d s
  | .beq => ∃ d, i = .beq d ∧ exec i s = branch .z true d s
  | .bmi => ∃ d, i = .bmi d ∧ exec i s = branch .n true d s
  | .bne => ∃ d, i = .bne d ∧ exec i s = branch .z false d s
  | .bpl => ∃ d, i = .bpl d ∧ exec i s = branch .n false d s
  | .bvc => ∃ d, i = .bvc d ∧ exec i s = branch .v false d s
  | .bvs => ∃ d, i = .bvs d ∧ exec i s = branch .v true d s
  | .inc => ∃ ea, effectiveAddress i s = some ea ∧ exec i s = modify (· + 1) i.mode ea s
  | .dec => ∃ ea, effectiveAddress i s = some ea ∧ exec i s = modify (· - 1) i.mode ea s
  | .inx => i = .inx ∧ exec i s = stepReg .x (· + 1) s
  | .iny => i = .iny ∧ exec i s = stepReg .y (· + 1) s
  | .dex => i = .dex ∧ exec i s = stepReg .x (· - 1) s
  | .dey => i = .dey ∧ exec i s = stepReg .y (· - 1) s
  | .jmp => ∃ ea, effectiveAddress i s = some ea ∧ exec i s = jump ea s
  | .jsr => ∃ a, i = .jsr a ∧ exec i s = call a s
  | .rts => i = .rts ∧ exec i s = jumpCall returnFromSubroutine s
  | .asl => ShiftForm aslOf i s
  | .lsr => ShiftForm lsrOf i s
  | .rol => ShiftForm (rolOf (s.flag .c)) i s
  | .ror => ShiftForm (rorOf (s.flag .c)) i s
  | .pha => i = .pha ∧ exec i s = ordinary .implicit (fun t => push t.a t) s
  | .php => i = .php ∧ exec i s = ordinary .implicit (fun t => push t.p t) s
  | .pla => i = .pla ∧ exec i s = ordinary .implicit (fun t => (pulled t).setRegZN .a (pullByte t)) s
  | .plp => i = .plp ∧ exec i s = ordinary .implicit (fun t => (pulled t).setP (pullByte t)) s
  | .clc => i = .clc ∧ exec i s = writeFlag .c false s
  | .cld => i = .cld ∧ exec i s = writeFlag .d false s
  | .cli => i = .cli ∧ exec i s = writeFlag .i false s
  | .clv => i = .clv ∧ exec i s = writeFlag .v false s
  | .sec => i = .sec ∧ exec i s = writeFlag .c true s
  | .sed => i = .sed ∧ exec i s = writeFlag .d true s
  | .sei => i = .sei ∧ exec i s = writeFlag .i true s
  | .tax => i = .tax ∧ exec i s = transfer .a .x s
  | .tay => i = .tay ∧ exec i s = transfer .a .y s
  | .txa => i = .txa ∧ exec i s = transfer .x .a s
  | .tya => i = .tya ∧ exec i s = transfer .y .a s
  | .tsx => i = .tsx ∧ exec i s = transfer .sp .x s
  | .txs => i = .txs ∧ exec i s = ordinary .implicit (fun t => t.setSp t.x) s
  | .brk => i = .brk ∧ exec i s = haltAt Config.brkHaltB s
  | .nop => i = .nop ∧ exec i s = ordinary .implicit id s
  | .rti => i = .rti ∧ exec i s = ordinary .implicit returnFromInterrupt s

/-- Every instruction is executed as its mnemonic's entry says. -/
theorem exec_by_op (i : Instr) (s : State) : ExecByOp i s := by
  cases i <;> first
    | exact ⟨_, rfl, rfl⟩
    | exact ⟨rfl, rfl⟩
    | exact .inl ⟨rfl, rfl, rfl⟩
    | exact .inr ⟨nofun, _, rfl, rfl⟩

end Sys2Proof.Machine
end

