-- ==== Sys2Proof/Laws/Effects.lean ====
section
/-! SUPPORT. Everything each shared operation can do, field by field, said once. Proofs about instructions cite these after
`exec_by_op`, and unfold no meaning. -/

namespace Sys2Proof.Machine

/-- `t` has these registers, status, PC and memory, and the run state of `s`. -/
structure Gives (s t : State) (regs : Reg → Byte) (p : Byte) (pc : Word) (mem : Memory) : Prop where
  reg : ∀ q, t.reg q = regs q
  p : t.p = p
  pc : t.pc = pc
  mem : t.mem = mem
  run : t.run = s.run

namespace Gives

variable {s t : State} {regs : Reg → Byte} {p : Byte} {pc : Word} {mem : Memory}

theorem flag (h : Gives s t regs p pc mem) (f : Flag) : t.flag f = getFlag p f := by rw [State.flag, h.p]

theorem read (h : Gives s t regs p pc mem) (a : Word) : t.read a = Memory.lookup mem a.toNat := by rw [State.read, h.mem]

theorem a (h : Gives s t regs p pc mem) : t.a = regs .a := h.reg .a

theorem x (h : Gives s t regs p pc mem) : t.x = regs .x := h.reg .x

theorem y (h : Gives s t regs p pc mem) : t.y = regs .y := h.reg .y

theorem sp (h : Gives s t regs p pc mem) : t.sp = regs .sp := h.reg .sp

end Gives

/-- PC past an instruction of a mode. -/
abbrev pastPc (s : State) (m : Mode) : Word := s.pc + BitVec.ofNat 16 m.length

/-- One register changed. -/
abbrev oneReg (s : State) (r : Reg) (v : Byte) : Reg → Byte := fun q => if q = r then v else s.reg q

theorem addInto_gives {m : Byte} {mode : Mode} {s t : State} (h : ordinary mode (addInto m) s = .next t) :
    Gives s t (oneReg s .a (addCore s.a m (s.flag .c)).1)
      (addFlags s.p (addCore s.a m (s.flag .c)).1 (addCore s.a m (s.flag .c)).2.1 (addCore s.a m (s.flag .c)).2.2)
      (pastPc s mode) s.mem := by
  obtain rfl := ordinary_next.mp h
  exact ⟨fun q => by cases q <;> rfl, rfl, advance_pc _ _, rfl, rfl⟩

/-- ADC and SBC: the decimal error, which leaves all but `run`, or the sum. -/
theorem adc_cases {pol : DecimalPolicy} {b m : Byte} {mode : Mode} {s t : State} (h : adc pol b mode m s = .next t) :
    (s.flag .d = true ∧ pol = .fault ∧ t = s.setRun (.faulted ⟨.notImplementedInstruction, b, s.pc⟩)) ∨
      ((s.flag .d = false ∨ pol = .binary) ∧ ordinary mode (addInto m) s = .next t) := by
  unfold adc decimalGuard at h
  split at h
  · cases pol
    · exact .inl ⟨by assumption, rfl, raiseError_next.mp h⟩
    · exact .inr ⟨.inr rfl, h⟩
  · exact .inr ⟨.inl (by simpa using ‹¬s.flag .d = true›), h⟩

theorem sbc_is_adc (pol : DecimalPolicy) (b : Byte) (mode : Mode) (m : Byte) (s : State) :
    sbc pol b mode m s = adc pol b mode (~~~m) s := rfl

theorem compareReg_gives {r : Reg} {mode : Mode} {m : Byte} {s t : State} (h : compareReg r mode m s = .next t) :
    Gives s t s.reg (compareFlags s.p (s.reg r) m) (pastPc s mode) s.mem := by
  obtain rfl := ordinary_next.mp h
  exact ⟨fun q => by cases q <;> rfl, by cases r <;> rfl, advance_pc _ _, rfl, rfl⟩

theorem logic_gives {f : Byte → Byte → Byte} {mode : Mode} {m : Byte} {s t : State} (h : logic f mode m s = .next t) :
    Gives s t (oneReg s .a (f s.a m)) (setZN s.p (f s.a m)) (pastPc s mode) s.mem := by
  obtain rfl := ordinary_next.mp h
  exact ⟨fun q => by cases q <;> rfl, rfl, advance_pc _ _, rfl, rfl⟩

theorem bitTest_gives {mode : Mode} {m : Byte} {s t : State} (h : bitTest mode m s = .next t) :
    Gives s t s.reg (bitFlags s.p s.a m) (pastPc s mode) s.mem := by
  obtain rfl := ordinary_next.mp h
  exact ⟨fun q => by cases q <;> rfl, rfl, advance_pc _ _, rfl, rfl⟩

theorem load_gives {r : Reg} {mode : Mode} {m : Byte} {s t : State} (h : load r mode m s = .next t) :
    Gives s t (oneReg s r m) (setZN s.p m) (pastPc s mode) s.mem := by
  obtain rfl := ordinary_next.mp h
  cases r <;> exact ⟨fun q => by cases q <;> rfl, rfl, advance_pc _ _, rfl, rfl⟩

theorem store_gives {r : Reg} {mode : Mode} {ea : Word} {s t : State} (h : store r mode ea s = .next t) :
    Gives s t s.reg s.p (pastPc s mode) (s.write ea (s.reg r)).mem := by
  obtain rfl := ordinary_next.mp h
  exact ⟨fun q => by cases q <;> rfl, rfl, advance_pc _ _, by cases r <;> rfl, rfl⟩

theorem branch_gives {f : Flag} {want : Bool} {d : Byte} {s t : State} (h : branch f want d s = .next t) :
    Gives s t s.reg s.p (if s.flag f = want then s.pc + 2 + sext16 d else s.pc + 2) s.mem := by
  obtain rfl := ordinary_next.mp h
  have hf : s.atDispatch.flag f = s.flag f := rfl
  simp only [hf]
  split
  · refine ⟨fun q => by cases q <;> rfl, rfl, ?_, rfl, rfl⟩
    show s.pc + 1 + sext16 d + 1 = _
    ring
  · refine ⟨fun q => by cases q <;> rfl, rfl, ?_, rfl, rfl⟩
    show s.pc + 1 + 1 = _
    ring

theorem modify_gives {f : Byte → Byte} {mode : Mode} {ea : Word} {s t : State} (h : modify f mode ea s = .next t) :
    Gives s t s.reg (setZN s.p (f (s.read ea))) (pastPc s mode) (s.write ea (f (s.read ea))).mem := by
  obtain rfl := ordinary_next.mp h
  exact ⟨fun q => by cases q <;> rfl, rfl, advance_pc _ _, rfl, rfl⟩

theorem stepReg_gives {r : Reg} {f : Byte → Byte} {s t : State} (h : stepReg r f s = .next t) :
    Gives s t (oneReg s r (f (s.reg r))) (setZN s.p (f (s.reg r))) (pastPc s .implicit) s.mem := by
  have hl : stepReg r f s = load r .implicit (f (s.reg r)) s := by cases r <;> rfl
  exact load_gives (hl ▸ h)

theorem jump_gives {ea : Word} {s t : State} (h : jump ea s = .next t) : Gives s t s.reg s.p ea s.mem := by
  obtain rfl := jumpCall_next.mp h
  exact ⟨fun q => by cases q <;> rfl, rfl, rfl, rfl, rfl⟩

theorem call_gives {ea : Word} {s t : State} (h : call ea s = .next t) :
    Gives s t (oneReg s .sp (s.sp - 2)) s.p ea
      ((s.write (stackAddr s.sp) (hiByte (s.pc + 2))).write (stackAddr (s.sp - 1)) (loByte (s.pc + 2))).mem := by
  obtain rfl := jumpCall_next.mp h
  have hpc : s.pc + 1#16 + 1#16 = s.pc + 2#16 := by bv_omega
  have hsp : s.sp - 1#8 - 1#8 = s.sp - 2#8 := by bv_omega
  refine ⟨fun q => ?_, ?_, ?_, ?_, ?_⟩
  · cases q <;> simp [oneReg, hsp]
  all_goals simp [hpc]

theorem return_gives {s t : State} (h : jumpCall returnFromSubroutine s = .next t) :
    Gives s t (oneReg s .sp (s.sp + 2)) s.p (join (s.read (stackAddr (s.sp + 2))) (s.read (stackAddr (s.sp + 1))) + 1) s.mem := by
  obtain rfl := jumpCall_next.mp h
  have hsp : s.sp + 1#8 + 1#8 = s.sp + 2#8 := by bv_omega
  refine ⟨fun q => ?_, ?_, ?_, ?_, ?_⟩
  · cases q <;> simp [oneReg, returnFromSubroutine, hsp]
  all_goals simp [returnFromSubroutine, pullByte, hsp]

theorem shiftA_gives {f : Byte → Byte × Bool} {s t : State} (h : shiftA f s = .next t) :
    Gives s t (oneReg s .a (f s.a).1) (shiftFlags s.p (f s.a)) (pastPc s .accumulator) s.mem := by
  obtain rfl := ordinary_next.mp h
  exact ⟨fun q => by cases q <;> rfl, rfl, advance_pc _ _, rfl, rfl⟩

theorem shiftMem_gives {f : Byte → Byte × Bool} {mode : Mode} {ea : Word} {s t : State} (h : shiftMem f mode ea s = .next t) :
    Gives s t s.reg (shiftFlags s.p (f (s.read ea))) (pastPc s mode) (s.write ea (f (s.read ea)).1).mem := by
  obtain rfl := ordinary_next.mp h
  exact ⟨fun q => by cases q <;> rfl, rfl, advance_pc _ _, rfl, rfl⟩

theorem pushA_gives {s t : State} (h : ordinary .implicit (fun t => push t.a t) s = .next t) :
    Gives s t (oneReg s .sp (s.sp - 1)) s.p (pastPc s .implicit) (s.write (stackAddr s.sp) s.a).mem := by
  obtain rfl := ordinary_next.mp h
  exact ⟨fun q => by cases q <;> rfl, rfl, advance_pc _ _, rfl, rfl⟩

theorem pushP_gives {s t : State} (h : ordinary .implicit (fun t => push t.p t) s = .next t) :
    Gives s t (oneReg s .sp (s.sp - 1)) s.p (pastPc s .implicit) (s.write (stackAddr s.sp) s.p).mem := by
  obtain rfl := ordinary_next.mp h
  exact ⟨fun q => by cases q <;> rfl, rfl, advance_pc _ _, rfl, rfl⟩

theorem pullA_gives {s t : State} (h : ordinary .implicit (fun t => (pulled t).setRegZN .a (pullByte t)) s = .next t) :
    Gives s t (fun q => if q = .a then pullByte s else if q = .sp then s.sp + 1 else s.reg q) (setZN s.p (pullByte s))
      (pastPc s .implicit) s.mem := by
  obtain rfl := ordinary_next.mp h
  exact ⟨fun q => by cases q <;> rfl, rfl, advance_pc _ _, rfl, rfl⟩

theorem pullP_gives {s t : State} (h : ordinary .implicit (fun t => (pulled t).setP (pullByte t)) s = .next t) :
    Gives s t (oneReg s .sp (s.sp + 1)) (pullByte s) (pastPc s .implicit) s.mem := by
  obtain rfl := ordinary_next.mp h
  exact ⟨fun q => by cases q <;> rfl, rfl, advance_pc _ _, rfl, rfl⟩

theorem writeFlag_gives {f : Flag} {v : Bool} {s t : State} (h : writeFlag f v s = .next t) :
    Gives s t s.reg (setFlag s.p f v) (pastPc s .implicit) s.mem := by
  obtain rfl := ordinary_next.mp h
  exact ⟨fun q => by cases q <;> rfl, rfl, advance_pc _ _, rfl, rfl⟩

theorem transfer_gives {src dst : Reg} {s t : State} (h : transfer src dst s = .next t) :
    Gives s t (oneReg s dst (s.reg src)) (setZN s.p (s.reg src)) (pastPc s .implicit) s.mem := by
  have hl : transfer src dst s = load dst .implicit (s.reg src) s := by cases src <;> rfl
  exact load_gives (hl ▸ h)

theorem txs_gives {s t : State} (h : ordinary .implicit (fun t => t.setSp t.x) s = .next t) :
    Gives s t (oneReg s .sp s.x) s.p (pastPc s .implicit) s.mem := by
  obtain rfl := ordinary_next.mp h
  exact ⟨fun q => by cases q <;> rfl, rfl, advance_pc _ _, rfl, rfl⟩

theorem nop_gives {s t : State} (h : ordinary .implicit id s = .next t) : Gives s t s.reg s.p (pastPc s .implicit) s.mem := by
  obtain rfl := ordinary_next.mp h
  exact ⟨fun q => by cases q <;> rfl, rfl, advance_pc _ _, rfl, rfl⟩

theorem rti_gives {s t : State} (h : ordinary .implicit returnFromInterrupt s = .next t) :
    Gives s t (oneReg s .sp (s.sp + 3)) (s.read (stackAddr (s.sp + 1)))
      (join (s.read (stackAddr (s.sp + 3))) (s.read (stackAddr (s.sp + 2)))) s.mem := by
  obtain rfl := ordinary_next.mp h
  have h2 : s.sp + 1#8 + 1#8 = s.sp + 2#8 := by bv_omega
  have h3 : s.sp + 2#8 + 1#8 = s.sp + 3#8 := by bv_omega
  refine ⟨fun q => ?_, ?_, ?_, ?_, ?_⟩
  · cases q <;> simp [oneReg, returnFromInterrupt, h2, h3]
  all_goals simp [returnFromInterrupt, pullByte, h2, h3, Mode.length]

/-- Everything an instruction can do, by its mnemonic, when `exec` answers `t`. -/
def EffectByOp (i : Instr) (s t : State) : Prop :=
  match i.op with
  | .adc => ∃ m, operandByte i s = some m ∧
    ((s.flag .d = true ∧ Config.decimalPolicy = .fault ∧ t = s.setRun (.faulted ⟨.notImplementedInstruction, i.opcode, s.pc⟩)) ∨
     ((s.flag .d = false ∨ Config.decimalPolicy = .binary) ∧ Gives s t (oneReg s .a (addCore s.a m (s.flag .c)).1)
      (addFlags s.p (addCore s.a m (s.flag .c)).1 (addCore s.a m (s.flag .c)).2.1 (addCore s.a m (s.flag .c)).2.2)
      (pastPc s i.mode) s.mem))
  | .sbc => ∃ m, operandByte i s = some m ∧
    ((s.flag .d = true ∧ Config.decimalPolicy = .fault ∧ t = s.setRun (.faulted ⟨.notImplementedInstruction, i.opcode, s.pc⟩)) ∨
     ((s.flag .d = false ∨ Config.decimalPolicy = .binary) ∧ Gives s t (oneReg s .a (addCore s.a (~~~m) (s.flag .c)).1)
      (addFlags s.p (addCore s.a (~~~m) (s.flag .c)).1 (addCore s.a (~~~m) (s.flag .c)).2.1 (addCore s.a (~~~m) (s.flag .c)).2.2)
      (pastPc s i.mode) s.mem))
  | .cmp => ∃ m, operandByte i s = some m ∧ Gives s t s.reg (compareFlags s.p (s.reg .a) m) (pastPc s i.mode) s.mem
  | .cpx => ∃ m, operandByte i s = some m ∧ Gives s t s.reg (compareFlags s.p (s.reg .x) m) (pastPc s i.mode) s.mem
  | .cpy => ∃ m, operandByte i s = some m ∧ Gives s t s.reg (compareFlags s.p (s.reg .y) m) (pastPc s i.mode) s.mem
  | .and =>
      ∃ m, operandByte i s = some m ∧
      Gives s t (oneReg s .a (s.a &&& m)) (setZN s.p (s.a &&& m)) (pastPc s i.mode) s.mem
  | .ora =>
      ∃ m, operandByte i s = some m ∧
      Gives s t (oneReg s .a (s.a ||| m)) (setZN s.p (s.a ||| m)) (pastPc s i.mode) s.mem
  | .eor =>
      ∃ m, operandByte i s = some m ∧
      Gives s t (oneReg s .a (s.a ^^^ m)) (setZN s.p (s.a ^^^ m)) (pastPc s i.mode) s.mem
  | .bit => ∃ m, operandByte i s = some m ∧ Gives s t s.reg (bitFlags s.p s.a m) (pastPc s i.mode) s.mem
  | .lda => ∃ m, operandByte i s = some m ∧ Gives s t (oneReg s .a m) (setZN s.p m) (pastPc s i.mode) s.mem
  | .ldx => ∃ m, operandByte i s = some m ∧ Gives s t (oneReg s .x m) (setZN s.p m) (pastPc s i.mode) s.mem
  | .ldy => ∃ m, operandByte i s = some m ∧ Gives s t (oneReg s .y m) (setZN s.p m) (pastPc s i.mode) s.mem
  | .sta => ∃ ea, effectiveAddress i s = some ea ∧ Gives s t s.reg s.p (pastPc s i.mode) (s.write ea (s.reg .a)).mem
  | .stx => ∃ ea, effectiveAddress i s = some ea ∧ Gives s t s.reg s.p (pastPc s i.mode) (s.write ea (s.reg .x)).mem
  | .sty => ∃ ea, effectiveAddress i s = some ea ∧ Gives s t s.reg s.p (pastPc s i.mode) (s.write ea (s.reg .y)).mem
  | .bcc => ∃ d, i = .bcc d ∧ Gives s t s.reg s.p (if s.flag .c = false then s.pc + 2 + sext16 d else s.pc + 2) s.mem
  | .bcs => ∃ d, i = .bcs d ∧ Gives s t s.reg s.p (if s.flag .c = true then s.pc + 2 + sext16 d else s.pc + 2) s.mem
  | .beq => ∃ d, i = .beq d ∧ Gives s t s.reg s.p (if s.flag .z = true then s.pc + 2 + sext16 d else s.pc + 2) s.mem
  | .bmi => ∃ d, i = .bmi d ∧ Gives s t s.reg s.p (if s.flag .n = true then s.pc + 2 + sext16 d else s.pc + 2) s.mem
  | .bne => ∃ d, i = .bne d ∧ Gives s t s.reg s.p (if s.flag .z = false then s.pc + 2 + sext16 d else s.pc + 2) s.mem
  | .bpl => ∃ d, i = .bpl d ∧ Gives s t s.reg s.p (if s.flag .n = false then s.pc + 2 + sext16 d else s.pc + 2) s.mem
  | .bvc => ∃ d, i = .bvc d ∧ Gives s t s.reg s.p (if s.flag .v = false then s.pc + 2 + sext16 d else s.pc + 2) s.mem
  | .bvs => ∃ d, i = .bvs d ∧ Gives s t s.reg s.p (if s.flag .v = true then s.pc + 2 + sext16 d else s.pc + 2) s.mem
  | .inc =>
      ∃ ea, effectiveAddress i s = some ea ∧
      Gives s t s.reg (setZN s.p (s.read ea + 1)) (pastPc s i.mode) (s.write ea (s.read ea + 1)).mem
  | .dec =>
      ∃ ea, effectiveAddress i s = some ea ∧
      Gives s t s.reg (setZN s.p (s.read ea - 1)) (pastPc s i.mode) (s.write ea (s.read ea - 1)).mem
  | .inx => i = .inx ∧ Gives s t (oneReg s .x (s.x + 1)) (setZN s.p (s.x + 1)) (pastPc s .implicit) s.mem
  | .iny => i = .iny ∧ Gives s t (oneReg s .y (s.y + 1)) (setZN s.p (s.y + 1)) (pastPc s .implicit) s.mem
  | .dex => i = .dex ∧ Gives s t (oneReg s .x (s.x - 1)) (setZN s.p (s.x - 1)) (pastPc s .implicit) s.mem
  | .dey => i = .dey ∧ Gives s t (oneReg s .y (s.y - 1)) (setZN s.p (s.y - 1)) (pastPc s .implicit) s.mem
  | .jmp => ∃ ea, effectiveAddress i s = some ea ∧ Gives s t s.reg s.p ea s.mem
  | .jsr =>
      ∃ a, i = .jsr a ∧
      Gives s t (oneReg s .sp (s.sp - 2)) s.p a
        ((s.write (stackAddr s.sp) (hiByte (s.pc + 2))).write (stackAddr (s.sp - 1)) (loByte (s.pc + 2))).mem
  | .rts =>
      i = .rts ∧
      Gives s t (oneReg s .sp (s.sp + 2)) s.p (join (s.read (stackAddr (s.sp + 2))) (s.read (stackAddr (s.sp + 1))) + 1) s.mem
  | .asl =>
      (i.mode = .accumulator ∧ effectiveAddress i s = none ∧
      Gives s t (oneReg s .a (aslOf s.a).1) (shiftFlags s.p (aslOf s.a)) (pastPc s i.mode) s.mem) ∨
      (i.mode ≠ .accumulator ∧ ∃ ea, effectiveAddress i s = some ea ∧
      Gives s t s.reg (shiftFlags s.p (aslOf (s.read ea))) (pastPc s i.mode) (s.write ea (aslOf (s.read ea)).1).mem)
  | .lsr =>
      (i.mode = .accumulator ∧ effectiveAddress i s = none ∧
      Gives s t (oneReg s .a (lsrOf s.a).1) (shiftFlags s.p (lsrOf s.a)) (pastPc s i.mode) s.mem) ∨
      (i.mode ≠ .accumulator ∧ ∃ ea, effectiveAddress i s = some ea ∧
      Gives s t s.reg (shiftFlags s.p (lsrOf (s.read ea))) (pastPc s i.mode) (s.write ea (lsrOf (s.read ea)).1).mem)
  | .rol =>
      (i.mode = .accumulator ∧ effectiveAddress i s = none ∧
      Gives s t (oneReg s .a (rolOf (s.flag .c) s.a).1) (shiftFlags s.p (rolOf (s.flag .c) s.a)) (pastPc s i.mode) s.mem) ∨
      (i.mode ≠ .accumulator ∧ ∃ ea, effectiveAddress i s = some ea ∧
      Gives s t s.reg (shiftFlags s.p (rolOf (s.flag .c) (s.read ea))) (pastPc s i.mode) (s.write ea (rolOf (s.flag .c) (s.read ea)).1).mem)
  | .ror =>
      (i.mode = .accumulator ∧ effectiveAddress i s = none ∧
      Gives s t (oneReg s .a (rorOf (s.flag .c) s.a).1) (shiftFlags s.p (rorOf (s.flag .c) s.a)) (pastPc s i.mode) s.mem) ∨
      (i.mode ≠ .accumulator ∧ ∃ ea, effectiveAddress i s = some ea ∧
      Gives s t s.reg (shiftFlags s.p (rorOf (s.flag .c) (s.read ea))) (pastPc s i.mode) (s.write ea (rorOf (s.flag .c) (s.read ea)).1).mem)
  | .pha => i = .pha ∧ Gives s t (oneReg s .sp (s.sp - 1)) s.p (pastPc s .implicit) (s.write (stackAddr s.sp) s.a).mem
  | .php => i = .php ∧ Gives s t (oneReg s .sp (s.sp - 1)) s.p (pastPc s .implicit) (s.write (stackAddr s.sp) s.p).mem
  | .pla =>
      i = .pla ∧
      Gives s t (fun q => if q = .a then pullByte s else if q = .sp then s.sp + 1 else s.reg q)
        (setZN s.p (pullByte s)) (pastPc s .implicit) s.mem
  | .plp => i = .plp ∧ Gives s t (oneReg s .sp (s.sp + 1)) (pullByte s) (pastPc s .implicit) s.mem
  | .clc => i = .clc ∧ Gives s t s.reg (setFlag s.p .c false) (pastPc s .implicit) s.mem
  | .cld => i = .cld ∧ Gives s t s.reg (setFlag s.p .d false) (pastPc s .implicit) s.mem
  | .cli => i = .cli ∧ Gives s t s.reg (setFlag s.p .i false) (pastPc s .implicit) s.mem
  | .clv => i = .clv ∧ Gives s t s.reg (setFlag s.p .v false) (pastPc s .implicit) s.mem
  | .sec => i = .sec ∧ Gives s t s.reg (setFlag s.p .c true) (pastPc s .implicit) s.mem
  | .sed => i = .sed ∧ Gives s t s.reg (setFlag s.p .d true) (pastPc s .implicit) s.mem
  | .sei => i = .sei ∧ Gives s t s.reg (setFlag s.p .i true) (pastPc s .implicit) s.mem
  | .tax => i = .tax ∧ Gives s t (oneReg s .x (s.reg .a)) (setZN s.p (s.reg .a)) (pastPc s .implicit) s.mem
  | .tay => i = .tay ∧ Gives s t (oneReg s .y (s.reg .a)) (setZN s.p (s.reg .a)) (pastPc s .implicit) s.mem
  | .txa => i = .txa ∧ Gives s t (oneReg s .a (s.reg .x)) (setZN s.p (s.reg .x)) (pastPc s .implicit) s.mem
  | .tya => i = .tya ∧ Gives s t (oneReg s .a (s.reg .y)) (setZN s.p (s.reg .y)) (pastPc s .implicit) s.mem
  | .tsx => i = .tsx ∧ Gives s t (oneReg s .x (s.reg .sp)) (setZN s.p (s.reg .sp)) (pastPc s .implicit) s.mem
  | .txs => i = .txs ∧ Gives s t (oneReg s .sp s.x) s.p (pastPc s .implicit) s.mem
  | .brk => i = .brk ∧ haltAt Config.brkHaltB s = .next t
  | .nop => i = .nop ∧ Gives s t s.reg s.p (pastPc s .implicit) s.mem
  | .rti =>
      i = .rti ∧
      Gives s t (oneReg s .sp (s.sp + 3)) (s.read (stackAddr (s.sp + 1)))
        (join (s.read (stackAddr (s.sp + 3))) (s.read (stackAddr (s.sp + 2)))) s.mem

/-- What `exec` can answer: the inversion every proof about all instructions starts from. -/
theorem exec_effect {i : Instr} {s t : State} (h : exec i s = .next t) : EffectByOp i s t := by
  have he := exec_by_op i s
  cases hop : i.op <;> simp only [ExecByOp, hop] at he <;> simp only [EffectByOp, hop]
  case adc =>
    obtain ⟨m, hm, he⟩ := he
    rw [he] at h
    exact ⟨m, hm, (adc_cases h).imp id fun ⟨h1, h2⟩ => ⟨h1, addInto_gives h2⟩⟩
  case sbc =>
    obtain ⟨m, hm, he⟩ := he
    rw [he] at h
    exact ⟨m, hm, (adc_cases (sbc_is_adc _ _ _ _ _ ▸ h)).imp id fun ⟨h1, h2⟩ => ⟨h1, addInto_gives h2⟩⟩
  case cmp =>
    obtain ⟨m, hm, he⟩ := he
    rw [he] at h
    have g := compareReg_gives h
    exact ⟨m, hm, g⟩
  case cpx =>
    obtain ⟨m, hm, he⟩ := he
    rw [he] at h
    have g := compareReg_gives h
    exact ⟨m, hm, g⟩
  case cpy =>
    obtain ⟨m, hm, he⟩ := he
    rw [he] at h
    have g := compareReg_gives h
    exact ⟨m, hm, g⟩
  case and =>
    obtain ⟨m, hm, he⟩ := he
    rw [he] at h
    have g := logic_gives h
    exact ⟨m, hm, g⟩
  case ora =>
    obtain ⟨m, hm, he⟩ := he
    rw [he] at h
    have g := logic_gives h
    exact ⟨m, hm, g⟩
  case eor =>
    obtain ⟨m, hm, he⟩ := he
    rw [he] at h
    have g := logic_gives h
    exact ⟨m, hm, g⟩
  case bit =>
    obtain ⟨m, hm, he⟩ := he
    rw [he] at h
    have g := bitTest_gives h
    exact ⟨m, hm, g⟩
  case lda =>
    obtain ⟨m, hm, he⟩ := he
    rw [he] at h
    have g := load_gives h
    exact ⟨m, hm, g⟩
  case ldx =>
    obtain ⟨m, hm, he⟩ := he
    rw [he] at h
    have g := load_gives h
    exact ⟨m, hm, g⟩
  case ldy =>
    obtain ⟨m, hm, he⟩ := he
    rw [he] at h
    have g := load_gives h
    exact ⟨m, hm, g⟩
  case sta =>
    obtain ⟨m, hm, he⟩ := he
    rw [he] at h
    have g := store_gives h
    exact ⟨m, hm, g⟩
  case stx =>
    obtain ⟨m, hm, he⟩ := he
    rw [he] at h
    have g := store_gives h
    exact ⟨m, hm, g⟩
  case sty =>
    obtain ⟨m, hm, he⟩ := he
    rw [he] at h
    have g := store_gives h
    exact ⟨m, hm, g⟩
  case bcc =>
    obtain ⟨m, hm, he⟩ := he
    rw [he] at h
    have g := branch_gives h
    exact ⟨m, hm, g⟩
  case bcs =>
    obtain ⟨m, hm, he⟩ := he
    rw [he] at h
    have g := branch_gives h
    exact ⟨m, hm, g⟩
  case beq =>
    obtain ⟨m, hm, he⟩ := he
    rw [he] at h
    have g := branch_gives h
    exact ⟨m, hm, g⟩
  case bmi =>
    obtain ⟨m, hm, he⟩ := he
    rw [he] at h
    have g := branch_gives h
    exact ⟨m, hm, g⟩
  case bne =>
    obtain ⟨m, hm, he⟩ := he
    rw [he] at h
    have g := branch_gives h
    exact ⟨m, hm, g⟩
  case bpl =>
    obtain ⟨m, hm, he⟩ := he
    rw [he] at h
    have g := branch_gives h
    exact ⟨m, hm, g⟩
  case bvc =>
    obtain ⟨m, hm, he⟩ := he
    rw [he] at h
    have g := branch_gives h
    exact ⟨m, hm, g⟩
  case bvs =>
    obtain ⟨m, hm, he⟩ := he
    rw [he] at h
    have g := branch_gives h
    exact ⟨m, hm, g⟩
  case inc =>
    obtain ⟨m, hm, he⟩ := he
    rw [he] at h
    have g := modify_gives h
    exact ⟨m, hm, g⟩
  case dec =>
    obtain ⟨m, hm, he⟩ := he
    rw [he] at h
    have g := modify_gives h
    exact ⟨m, hm, g⟩
  case inx =>
    obtain ⟨hi, he⟩ := he
    rw [he] at h
    have g := stepReg_gives h
    exact ⟨hi, g⟩
  case iny =>
    obtain ⟨hi, he⟩ := he
    rw [he] at h
    have g := stepReg_gives h
    exact ⟨hi, g⟩
  case dex =>
    obtain ⟨hi, he⟩ := he
    rw [he] at h
    have g := stepReg_gives h
    exact ⟨hi, g⟩
  case dey =>
    obtain ⟨hi, he⟩ := he
    rw [he] at h
    have g := stepReg_gives h
    exact ⟨hi, g⟩
  case jmp =>
    obtain ⟨m, hm, he⟩ := he
    rw [he] at h
    have g := jump_gives h
    exact ⟨m, hm, g⟩
  case jsr =>
    obtain ⟨m, hm, he⟩ := he
    rw [he] at h
    have g := call_gives h
    exact ⟨m, hm, g⟩
  case rts =>
    obtain ⟨hi, he⟩ := he
    rw [he] at h
    have g := return_gives h
    exact ⟨hi, g⟩
  case asl =>
    rcases he with ⟨h1, h2, he⟩ | ⟨h1, ea, h2, he⟩ <;> rw [he] at h
    · have g := shiftA_gives h
      exact .inl ⟨h1, h2, h1 ▸ g⟩
    · have g := shiftMem_gives h
      exact .inr ⟨h1, ea, h2, g⟩
  case lsr =>
    rcases he with ⟨h1, h2, he⟩ | ⟨h1, ea, h2, he⟩ <;> rw [he] at h
    · have g := shiftA_gives h
      exact .inl ⟨h1, h2, h1 ▸ g⟩
    · have g := shiftMem_gives h
      exact .inr ⟨h1, ea, h2, g⟩
  case rol =>
    rcases he with ⟨h1, h2, he⟩ | ⟨h1, ea, h2, he⟩ <;> rw [he] at h
    · have g := shiftA_gives h
      exact .inl ⟨h1, h2, h1 ▸ g⟩
    · have g := shiftMem_gives h
      exact .inr ⟨h1, ea, h2, g⟩
  case ror =>
    rcases he with ⟨h1, h2, he⟩ | ⟨h1, ea, h2, he⟩ <;> rw [he] at h
    · have g := shiftA_gives h
      exact .inl ⟨h1, h2, h1 ▸ g⟩
    · have g := shiftMem_gives h
      exact .inr ⟨h1, ea, h2, g⟩
  case pha =>
    obtain ⟨hi, he⟩ := he
    rw [he] at h
    have g := pushA_gives h
    exact ⟨hi, g⟩
  case php =>
    obtain ⟨hi, he⟩ := he
    rw [he] at h
    have g := pushP_gives h
    exact ⟨hi, g⟩
  case pla =>
    obtain ⟨hi, he⟩ := he
    rw [he] at h
    have g := pullA_gives h
    exact ⟨hi, g⟩
  case plp =>
    obtain ⟨hi, he⟩ := he
    rw [he] at h
    have g := pullP_gives h
    exact ⟨hi, g⟩
  case clc =>
    obtain ⟨hi, he⟩ := he
    rw [he] at h
    have g := writeFlag_gives h
    exact ⟨hi, g⟩
  case cld =>
    obtain ⟨hi, he⟩ := he
    rw [he] at h
    have g := writeFlag_gives h
    exact ⟨hi, g⟩
  case cli =>
    obtain ⟨hi, he⟩ := he
    rw [he] at h
    have g := writeFlag_gives h
    exact ⟨hi, g⟩
  case clv =>
    obtain ⟨hi, he⟩ := he
    rw [he] at h
    have g := writeFlag_gives h
    exact ⟨hi, g⟩
  case sec =>
    obtain ⟨hi, he⟩ := he
    rw [he] at h
    have g := writeFlag_gives h
    exact ⟨hi, g⟩
  case sed =>
    obtain ⟨hi, he⟩ := he
    rw [he] at h
    have g := writeFlag_gives h
    exact ⟨hi, g⟩
  case sei =>
    obtain ⟨hi, he⟩ := he
    rw [he] at h
    have g := writeFlag_gives h
    exact ⟨hi, g⟩
  case tax =>
    obtain ⟨hi, he⟩ := he
    rw [he] at h
    have g := transfer_gives h
    exact ⟨hi, g⟩
  case tay =>
    obtain ⟨hi, he⟩ := he
    rw [he] at h
    have g := transfer_gives h
    exact ⟨hi, g⟩
  case txa =>
    obtain ⟨hi, he⟩ := he
    rw [he] at h
    have g := transfer_gives h
    exact ⟨hi, g⟩
  case tya =>
    obtain ⟨hi, he⟩ := he
    rw [he] at h
    have g := transfer_gives h
    exact ⟨hi, g⟩
  case tsx =>
    obtain ⟨hi, he⟩ := he
    rw [he] at h
    have g := transfer_gives h
    exact ⟨hi, g⟩
  case txs =>
    obtain ⟨hi, he⟩ := he
    rw [he] at h
    have g := txs_gives h
    exact ⟨hi, g⟩
  case brk =>
    obtain ⟨hi, he⟩ := he
    rw [he] at h
    have g := id h
    exact ⟨hi, g⟩
  case nop =>
    obtain ⟨hi, he⟩ := he
    rw [he] at h
    have g := nop_gives h
    exact ⟨hi, g⟩
  case rti =>
    obtain ⟨hi, he⟩ := he
    rw [he] at h
    have g := rti_gives h
    exact ⟨hi, g⟩

/-- `exec` answers a state, whatever the instruction and the state (60_exceptions.md R220). -/
theorem exec_answers (i : Instr) (s : State) : ∃ t, exec i s = .next t := by
  have h := exec_by_op i s
  unfold ExecByOp at h
  split at h
  all_goals first
    | (rcases h with ⟨_, _, h⟩ | ⟨_, _, _, h⟩ <;> (rw [h]; exact ⟨_, rfl⟩))
    | (obtain ⟨_, _, h⟩ := h
       rw [h]
       first
       | exact ⟨_, rfl⟩
       | (simp only [adc, sbc, decimalGuard]
          split
          · split <;> exact ⟨_, rfl⟩
          · exact ⟨_, rfl⟩))
    | (obtain ⟨_, h⟩ := h
       rw [h]
       exact ⟨_, rfl⟩)

end Sys2Proof.Machine
end

