-- ==== Sys2Proof/Laws/PerInstr.lean ====
section
/-! SUPPORT. One lemma for each instruction: it is well formed, its bytes are as many as its mode says, and the row of its opcode byte
has its mode and makes that instruction of its operand bytes (30_encoding.md R71 to R74). -/

set_option maxRecDepth 2000

namespace Sys2Proof.Laws.Encoding

/-- What is said of each instruction. -/
def Statement (i : Instr) : Prop :=
  i.wf = true ∧ i.operand.bytes.length + 1 = i.mode.length ∧
    ∃ r, lookupRow opcodeTable i.opcode = some r ∧ r.mode = i.mode ∧
      ∀ rest, r.form.take (i.operand.bytes ++ rest) = .ok (i, rest)

/-- The statement of an instruction from its row. -/
theorem of_row {i : Instr} (r : OpcodeRow) (hw : i.wf = true) (hl : i.operand.bytes.length + 1 = i.mode.length)
    (hr : lookupRow opcodeTable i.opcode = some r) (hm : r.mode = i.mode)
    (ht : ∀ rest, r.form.take (i.operand.bytes ++ rest) = .ok (i, rest)) : Statement i :=
  ⟨hw, hl, r, hr, hm, ht⟩

theorem adcImmediate (imm8 : Byte) : Statement (.adcImmediate imm8) :=
  of_row ⟨0x69, .immediate, .byte .adcImmediate⟩ rfl rfl rfl rfl (fun _ => rfl)

theorem adcZeroPage (zp8 : Byte) : Statement (.adcZeroPage zp8) :=
  of_row ⟨0x65, .zeroPage, .byte .adcZeroPage⟩ rfl rfl rfl rfl (fun _ => rfl)

theorem adcZeroPageX (zp8 : Byte) : Statement (.adcZeroPageX zp8) :=
  of_row ⟨0x75, .zeroPageX, .byte .adcZeroPageX⟩ rfl rfl rfl rfl (fun _ => rfl)

theorem adcAbsolute (addr16 : Word) : Statement (.adcAbsolute addr16) :=
  of_row ⟨0x6D, .absolute, .word .adcAbsolute⟩ rfl rfl rfl rfl (fun rest => by
    simp [Instr.operand, Operand.bytes, RowForm.take])

theorem adcAbsoluteX (addr16 : Word) : Statement (.adcAbsoluteX addr16) :=
  of_row ⟨0x7D, .absoluteX, .word .adcAbsoluteX⟩ rfl rfl rfl rfl (fun rest => by
    simp [Instr.operand, Operand.bytes, RowForm.take])

theorem adcAbsoluteY (addr16 : Word) : Statement (.adcAbsoluteY addr16) :=
  of_row ⟨0x79, .absoluteY, .word .adcAbsoluteY⟩ rfl rfl rfl rfl (fun rest => by
    simp [Instr.operand, Operand.bytes, RowForm.take])

theorem adcIndirectX (zp8 : Byte) : Statement (.adcIndirectX zp8) :=
  of_row ⟨0x61, .indirectX, .byte .adcIndirectX⟩ rfl rfl rfl rfl (fun _ => rfl)

theorem adcIndirectY (zp8 : Byte) : Statement (.adcIndirectY zp8) :=
  of_row ⟨0x71, .indirectY, .byte .adcIndirectY⟩ rfl rfl rfl rfl (fun _ => rfl)

theorem sbcImmediate (imm8 : Byte) : Statement (.sbcImmediate imm8) :=
  of_row ⟨0xE9, .immediate, .byte .sbcImmediate⟩ rfl rfl rfl rfl (fun _ => rfl)

theorem sbcZeroPage (zp8 : Byte) : Statement (.sbcZeroPage zp8) :=
  of_row ⟨0xE5, .zeroPage, .byte .sbcZeroPage⟩ rfl rfl rfl rfl (fun _ => rfl)

theorem sbcZeroPageX (zp8 : Byte) : Statement (.sbcZeroPageX zp8) :=
  of_row ⟨0xF5, .zeroPageX, .byte .sbcZeroPageX⟩ rfl rfl rfl rfl (fun _ => rfl)

theorem sbcAbsolute (addr16 : Word) : Statement (.sbcAbsolute addr16) :=
  of_row ⟨0xED, .absolute, .word .sbcAbsolute⟩ rfl rfl rfl rfl (fun rest => by
    simp [Instr.operand, Operand.bytes, RowForm.take])

theorem sbcAbsoluteX (addr16 : Word) : Statement (.sbcAbsoluteX addr16) :=
  of_row ⟨0xFD, .absoluteX, .word .sbcAbsoluteX⟩ rfl rfl rfl rfl (fun rest => by
    simp [Instr.operand, Operand.bytes, RowForm.take])

theorem sbcAbsoluteY (addr16 : Word) : Statement (.sbcAbsoluteY addr16) :=
  of_row ⟨0xF9, .absoluteY, .word .sbcAbsoluteY⟩ rfl rfl rfl rfl (fun rest => by
    simp [Instr.operand, Operand.bytes, RowForm.take])

theorem sbcIndirectX (zp8 : Byte) : Statement (.sbcIndirectX zp8) :=
  of_row ⟨0xE1, .indirectX, .byte .sbcIndirectX⟩ rfl rfl rfl rfl (fun _ => rfl)

theorem sbcIndirectY (zp8 : Byte) : Statement (.sbcIndirectY zp8) :=
  of_row ⟨0xF1, .indirectY, .byte .sbcIndirectY⟩ rfl rfl rfl rfl (fun _ => rfl)

theorem cmpImmediate (imm8 : Byte) : Statement (.cmpImmediate imm8) :=
  of_row ⟨0xC9, .immediate, .byte .cmpImmediate⟩ rfl rfl rfl rfl (fun _ => rfl)

theorem cmpZeroPage (zp8 : Byte) : Statement (.cmpZeroPage zp8) :=
  of_row ⟨0xC5, .zeroPage, .byte .cmpZeroPage⟩ rfl rfl rfl rfl (fun _ => rfl)

theorem cmpZeroPageX (zp8 : Byte) : Statement (.cmpZeroPageX zp8) :=
  of_row ⟨0xD5, .zeroPageX, .byte .cmpZeroPageX⟩ rfl rfl rfl rfl (fun _ => rfl)

theorem cmpAbsolute (addr16 : Word) : Statement (.cmpAbsolute addr16) :=
  of_row ⟨0xCD, .absolute, .word .cmpAbsolute⟩ rfl rfl rfl rfl (fun rest => by
    simp [Instr.operand, Operand.bytes, RowForm.take])

theorem cmpAbsoluteX (addr16 : Word) : Statement (.cmpAbsoluteX addr16) :=
  of_row ⟨0xDD, .absoluteX, .word .cmpAbsoluteX⟩ rfl rfl rfl rfl (fun rest => by
    simp [Instr.operand, Operand.bytes, RowForm.take])

theorem cmpAbsoluteY (addr16 : Word) : Statement (.cmpAbsoluteY addr16) :=
  of_row ⟨0xD9, .absoluteY, .word .cmpAbsoluteY⟩ rfl rfl rfl rfl (fun rest => by
    simp [Instr.operand, Operand.bytes, RowForm.take])

theorem cmpIndirectX (zp8 : Byte) : Statement (.cmpIndirectX zp8) :=
  of_row ⟨0xC1, .indirectX, .byte .cmpIndirectX⟩ rfl rfl rfl rfl (fun _ => rfl)

theorem cmpIndirectY (zp8 : Byte) : Statement (.cmpIndirectY zp8) :=
  of_row ⟨0xD1, .indirectY, .byte .cmpIndirectY⟩ rfl rfl rfl rfl (fun _ => rfl)

theorem cpxImmediate (imm8 : Byte) : Statement (.cpxImmediate imm8) :=
  of_row ⟨0xE0, .immediate, .byte .cpxImmediate⟩ rfl rfl rfl rfl (fun _ => rfl)

theorem cpxZeroPage (zp8 : Byte) : Statement (.cpxZeroPage zp8) :=
  of_row ⟨0xE4, .zeroPage, .byte .cpxZeroPage⟩ rfl rfl rfl rfl (fun _ => rfl)

theorem cpxAbsolute (addr16 : Word) : Statement (.cpxAbsolute addr16) :=
  of_row ⟨0xEC, .absolute, .word .cpxAbsolute⟩ rfl rfl rfl rfl (fun rest => by
    simp [Instr.operand, Operand.bytes, RowForm.take])

theorem cpyImmediate (imm8 : Byte) : Statement (.cpyImmediate imm8) :=
  of_row ⟨0xC0, .immediate, .byte .cpyImmediate⟩ rfl rfl rfl rfl (fun _ => rfl)

theorem cpyZeroPage (zp8 : Byte) : Statement (.cpyZeroPage zp8) :=
  of_row ⟨0xC4, .zeroPage, .byte .cpyZeroPage⟩ rfl rfl rfl rfl (fun _ => rfl)

theorem cpyAbsolute (addr16 : Word) : Statement (.cpyAbsolute addr16) :=
  of_row ⟨0xCC, .absolute, .word .cpyAbsolute⟩ rfl rfl rfl rfl (fun rest => by
    simp [Instr.operand, Operand.bytes, RowForm.take])

theorem andImmediate (imm8 : Byte) : Statement (.andImmediate imm8) :=
  of_row ⟨0x29, .immediate, .byte .andImmediate⟩ rfl rfl rfl rfl (fun _ => rfl)

theorem andZeroPage (zp8 : Byte) : Statement (.andZeroPage zp8) :=
  of_row ⟨0x25, .zeroPage, .byte .andZeroPage⟩ rfl rfl rfl rfl (fun _ => rfl)

theorem andZeroPageX (zp8 : Byte) : Statement (.andZeroPageX zp8) :=
  of_row ⟨0x35, .zeroPageX, .byte .andZeroPageX⟩ rfl rfl rfl rfl (fun _ => rfl)

theorem andAbsolute (addr16 : Word) : Statement (.andAbsolute addr16) :=
  of_row ⟨0x2D, .absolute, .word .andAbsolute⟩ rfl rfl rfl rfl (fun rest => by
    simp [Instr.operand, Operand.bytes, RowForm.take])

theorem andAbsoluteX (addr16 : Word) : Statement (.andAbsoluteX addr16) :=
  of_row ⟨0x3D, .absoluteX, .word .andAbsoluteX⟩ rfl rfl rfl rfl (fun rest => by
    simp [Instr.operand, Operand.bytes, RowForm.take])

theorem andAbsoluteY (addr16 : Word) : Statement (.andAbsoluteY addr16) :=
  of_row ⟨0x39, .absoluteY, .word .andAbsoluteY⟩ rfl rfl rfl rfl (fun rest => by
    simp [Instr.operand, Operand.bytes, RowForm.take])

theorem andIndirectX (zp8 : Byte) : Statement (.andIndirectX zp8) :=
  of_row ⟨0x21, .indirectX, .byte .andIndirectX⟩ rfl rfl rfl rfl (fun _ => rfl)

theorem andIndirectY (zp8 : Byte) : Statement (.andIndirectY zp8) :=
  of_row ⟨0x31, .indirectY, .byte .andIndirectY⟩ rfl rfl rfl rfl (fun _ => rfl)

theorem oraImmediate (imm8 : Byte) : Statement (.oraImmediate imm8) :=
  of_row ⟨0x09, .immediate, .byte .oraImmediate⟩ rfl rfl rfl rfl (fun _ => rfl)

theorem oraZeroPage (zp8 : Byte) : Statement (.oraZeroPage zp8) :=
  of_row ⟨0x05, .zeroPage, .byte .oraZeroPage⟩ rfl rfl rfl rfl (fun _ => rfl)

theorem oraZeroPageX (zp8 : Byte) : Statement (.oraZeroPageX zp8) :=
  of_row ⟨0x15, .zeroPageX, .byte .oraZeroPageX⟩ rfl rfl rfl rfl (fun _ => rfl)

theorem oraAbsolute (addr16 : Word) : Statement (.oraAbsolute addr16) :=
  of_row ⟨0x0D, .absolute, .word .oraAbsolute⟩ rfl rfl rfl rfl (fun rest => by
    simp [Instr.operand, Operand.bytes, RowForm.take])

theorem oraAbsoluteX (addr16 : Word) : Statement (.oraAbsoluteX addr16) :=
  of_row ⟨0x1D, .absoluteX, .word .oraAbsoluteX⟩ rfl rfl rfl rfl (fun rest => by
    simp [Instr.operand, Operand.bytes, RowForm.take])

theorem oraAbsoluteY (addr16 : Word) : Statement (.oraAbsoluteY addr16) :=
  of_row ⟨0x19, .absoluteY, .word .oraAbsoluteY⟩ rfl rfl rfl rfl (fun rest => by
    simp [Instr.operand, Operand.bytes, RowForm.take])

theorem oraIndirectX (zp8 : Byte) : Statement (.oraIndirectX zp8) :=
  of_row ⟨0x01, .indirectX, .byte .oraIndirectX⟩ rfl rfl rfl rfl (fun _ => rfl)

theorem oraIndirectY (zp8 : Byte) : Statement (.oraIndirectY zp8) :=
  of_row ⟨0x11, .indirectY, .byte .oraIndirectY⟩ rfl rfl rfl rfl (fun _ => rfl)

theorem eorImmediate (imm8 : Byte) : Statement (.eorImmediate imm8) :=
  of_row ⟨0x49, .immediate, .byte .eorImmediate⟩ rfl rfl rfl rfl (fun _ => rfl)

theorem eorZeroPage (zp8 : Byte) : Statement (.eorZeroPage zp8) :=
  of_row ⟨0x45, .zeroPage, .byte .eorZeroPage⟩ rfl rfl rfl rfl (fun _ => rfl)

theorem eorZeroPageX (zp8 : Byte) : Statement (.eorZeroPageX zp8) :=
  of_row ⟨0x55, .zeroPageX, .byte .eorZeroPageX⟩ rfl rfl rfl rfl (fun _ => rfl)

theorem eorAbsolute (addr16 : Word) : Statement (.eorAbsolute addr16) :=
  of_row ⟨0x4D, .absolute, .word .eorAbsolute⟩ rfl rfl rfl rfl (fun rest => by
    simp [Instr.operand, Operand.bytes, RowForm.take])

theorem eorAbsoluteX (addr16 : Word) : Statement (.eorAbsoluteX addr16) :=
  of_row ⟨0x5D, .absoluteX, .word .eorAbsoluteX⟩ rfl rfl rfl rfl (fun rest => by
    simp [Instr.operand, Operand.bytes, RowForm.take])

theorem eorAbsoluteY (addr16 : Word) : Statement (.eorAbsoluteY addr16) :=
  of_row ⟨0x59, .absoluteY, .word .eorAbsoluteY⟩ rfl rfl rfl rfl (fun rest => by
    simp [Instr.operand, Operand.bytes, RowForm.take])

theorem eorIndirectX (zp8 : Byte) : Statement (.eorIndirectX zp8) :=
  of_row ⟨0x41, .indirectX, .byte .eorIndirectX⟩ rfl rfl rfl rfl (fun _ => rfl)

theorem eorIndirectY (zp8 : Byte) : Statement (.eorIndirectY zp8) :=
  of_row ⟨0x51, .indirectY, .byte .eorIndirectY⟩ rfl rfl rfl rfl (fun _ => rfl)

theorem bitZeroPage (zp8 : Byte) : Statement (.bitZeroPage zp8) :=
  of_row ⟨0x24, .zeroPage, .byte .bitZeroPage⟩ rfl rfl rfl rfl (fun _ => rfl)

theorem bitAbsolute (addr16 : Word) : Statement (.bitAbsolute addr16) :=
  of_row ⟨0x2C, .absolute, .word .bitAbsolute⟩ rfl rfl rfl rfl (fun rest => by
    simp [Instr.operand, Operand.bytes, RowForm.take])

theorem ldaImmediate (imm8 : Byte) : Statement (.ldaImmediate imm8) :=
  of_row ⟨0xA9, .immediate, .byte .ldaImmediate⟩ rfl rfl rfl rfl (fun _ => rfl)

theorem ldaZeroPage (zp8 : Byte) : Statement (.ldaZeroPage zp8) :=
  of_row ⟨0xA5, .zeroPage, .byte .ldaZeroPage⟩ rfl rfl rfl rfl (fun _ => rfl)

theorem ldaZeroPageX (zp8 : Byte) : Statement (.ldaZeroPageX zp8) :=
  of_row ⟨0xB5, .zeroPageX, .byte .ldaZeroPageX⟩ rfl rfl rfl rfl (fun _ => rfl)

theorem ldaAbsolute (addr16 : Word) : Statement (.ldaAbsolute addr16) :=
  of_row ⟨0xAD, .absolute, .word .ldaAbsolute⟩ rfl rfl rfl rfl (fun rest => by
    simp [Instr.operand, Operand.bytes, RowForm.take])

theorem ldaAbsoluteX (addr16 : Word) : Statement (.ldaAbsoluteX addr16) :=
  of_row ⟨0xBD, .absoluteX, .word .ldaAbsoluteX⟩ rfl rfl rfl rfl (fun rest => by
    simp [Instr.operand, Operand.bytes, RowForm.take])

theorem ldaAbsoluteY (addr16 : Word) : Statement (.ldaAbsoluteY addr16) :=
  of_row ⟨0xB9, .absoluteY, .word .ldaAbsoluteY⟩ rfl rfl rfl rfl (fun rest => by
    simp [Instr.operand, Operand.bytes, RowForm.take])

theorem ldaIndirectX (zp8 : Byte) : Statement (.ldaIndirectX zp8) :=
  of_row ⟨0xA1, .indirectX, .byte .ldaIndirectX⟩ rfl rfl rfl rfl (fun _ => rfl)

theorem ldaIndirectY (zp8 : Byte) : Statement (.ldaIndirectY zp8) :=
  of_row ⟨0xB1, .indirectY, .byte .ldaIndirectY⟩ rfl rfl rfl rfl (fun _ => rfl)

theorem ldxImmediate (imm8 : Byte) : Statement (.ldxImmediate imm8) :=
  of_row ⟨0xA2, .immediate, .byte .ldxImmediate⟩ rfl rfl rfl rfl (fun _ => rfl)

theorem ldxZeroPage (zp8 : Byte) : Statement (.ldxZeroPage zp8) :=
  of_row ⟨0xA6, .zeroPage, .byte .ldxZeroPage⟩ rfl rfl rfl rfl (fun _ => rfl)

theorem ldxZeroPageY (zp8 : Byte) : Statement (.ldxZeroPageY zp8) :=
  of_row ⟨0xB6, .zeroPageY, .byte .ldxZeroPageY⟩ rfl rfl rfl rfl (fun _ => rfl)

theorem ldxAbsolute (addr16 : Word) : Statement (.ldxAbsolute addr16) :=
  of_row ⟨0xAE, .absolute, .word .ldxAbsolute⟩ rfl rfl rfl rfl (fun rest => by
    simp [Instr.operand, Operand.bytes, RowForm.take])

theorem ldxAbsoluteY (addr16 : Word) : Statement (.ldxAbsoluteY addr16) :=
  of_row ⟨0xBE, .absoluteY, .word .ldxAbsoluteY⟩ rfl rfl rfl rfl (fun rest => by
    simp [Instr.operand, Operand.bytes, RowForm.take])

theorem ldyImmediate (imm8 : Byte) : Statement (.ldyImmediate imm8) :=
  of_row ⟨0xA0, .immediate, .byte .ldyImmediate⟩ rfl rfl rfl rfl (fun _ => rfl)

theorem ldyZeroPage (zp8 : Byte) : Statement (.ldyZeroPage zp8) :=
  of_row ⟨0xA4, .zeroPage, .byte .ldyZeroPage⟩ rfl rfl rfl rfl (fun _ => rfl)

theorem ldyZeroPageX (zp8 : Byte) : Statement (.ldyZeroPageX zp8) :=
  of_row ⟨0xB4, .zeroPageX, .byte .ldyZeroPageX⟩ rfl rfl rfl rfl (fun _ => rfl)

theorem ldyAbsolute (addr16 : Word) : Statement (.ldyAbsolute addr16) :=
  of_row ⟨0xAC, .absolute, .word .ldyAbsolute⟩ rfl rfl rfl rfl (fun rest => by
    simp [Instr.operand, Operand.bytes, RowForm.take])

theorem ldyAbsoluteX (addr16 : Word) : Statement (.ldyAbsoluteX addr16) :=
  of_row ⟨0xBC, .absoluteX, .word .ldyAbsoluteX⟩ rfl rfl rfl rfl (fun rest => by
    simp [Instr.operand, Operand.bytes, RowForm.take])

theorem staZeroPage (zp8 : Byte) : Statement (.staZeroPage zp8) :=
  of_row ⟨0x85, .zeroPage, .byte .staZeroPage⟩ rfl rfl rfl rfl (fun _ => rfl)

theorem staZeroPageX (zp8 : Byte) : Statement (.staZeroPageX zp8) :=
  of_row ⟨0x95, .zeroPageX, .byte .staZeroPageX⟩ rfl rfl rfl rfl (fun _ => rfl)

theorem staAbsolute (addr16 : Word) : Statement (.staAbsolute addr16) :=
  of_row ⟨0x8D, .absolute, .word .staAbsolute⟩ rfl rfl rfl rfl (fun rest => by
    simp [Instr.operand, Operand.bytes, RowForm.take])

theorem staAbsoluteX (addr16 : Word) : Statement (.staAbsoluteX addr16) :=
  of_row ⟨0x9D, .absoluteX, .word .staAbsoluteX⟩ rfl rfl rfl rfl (fun rest => by
    simp [Instr.operand, Operand.bytes, RowForm.take])

theorem staAbsoluteY (addr16 : Word) : Statement (.staAbsoluteY addr16) :=
  of_row ⟨0x99, .absoluteY, .word .staAbsoluteY⟩ rfl rfl rfl rfl (fun rest => by
    simp [Instr.operand, Operand.bytes, RowForm.take])

theorem staIndirectX (zp8 : Byte) : Statement (.staIndirectX zp8) :=
  of_row ⟨0x81, .indirectX, .byte .staIndirectX⟩ rfl rfl rfl rfl (fun _ => rfl)

theorem staIndirectY (zp8 : Byte) : Statement (.staIndirectY zp8) :=
  of_row ⟨0x91, .indirectY, .byte .staIndirectY⟩ rfl rfl rfl rfl (fun _ => rfl)

theorem stxZeroPage (zp8 : Byte) : Statement (.stxZeroPage zp8) :=
  of_row ⟨0x86, .zeroPage, .byte .stxZeroPage⟩ rfl rfl rfl rfl (fun _ => rfl)

theorem stxZeroPageY (zp8 : Byte) : Statement (.stxZeroPageY zp8) :=
  of_row ⟨0x96, .zeroPageY, .byte .stxZeroPageY⟩ rfl rfl rfl rfl (fun _ => rfl)

theorem stxAbsolute (addr16 : Word) : Statement (.stxAbsolute addr16) :=
  of_row ⟨0x8E, .absolute, .word .stxAbsolute⟩ rfl rfl rfl rfl (fun rest => by
    simp [Instr.operand, Operand.bytes, RowForm.take])

theorem styZeroPage (zp8 : Byte) : Statement (.styZeroPage zp8) :=
  of_row ⟨0x84, .zeroPage, .byte .styZeroPage⟩ rfl rfl rfl rfl (fun _ => rfl)

theorem styZeroPageX (zp8 : Byte) : Statement (.styZeroPageX zp8) :=
  of_row ⟨0x94, .zeroPageX, .byte .styZeroPageX⟩ rfl rfl rfl rfl (fun _ => rfl)

theorem styAbsolute (addr16 : Word) : Statement (.styAbsolute addr16) :=
  of_row ⟨0x8C, .absolute, .word .styAbsolute⟩ rfl rfl rfl rfl (fun rest => by
    simp [Instr.operand, Operand.bytes, RowForm.take])

theorem bcc (disp8 : Byte) : Statement (.bcc disp8) :=
  of_row ⟨0x90, .relative, .byte .bcc⟩ rfl rfl rfl rfl (fun _ => rfl)

theorem bcs (disp8 : Byte) : Statement (.bcs disp8) :=
  of_row ⟨0xB0, .relative, .byte .bcs⟩ rfl rfl rfl rfl (fun _ => rfl)

theorem beq (disp8 : Byte) : Statement (.beq disp8) :=
  of_row ⟨0xF0, .relative, .byte .beq⟩ rfl rfl rfl rfl (fun _ => rfl)

theorem bmi (disp8 : Byte) : Statement (.bmi disp8) :=
  of_row ⟨0x30, .relative, .byte .bmi⟩ rfl rfl rfl rfl (fun _ => rfl)

theorem bne (disp8 : Byte) : Statement (.bne disp8) :=
  of_row ⟨0xD0, .relative, .byte .bne⟩ rfl rfl rfl rfl (fun _ => rfl)

theorem bpl (disp8 : Byte) : Statement (.bpl disp8) :=
  of_row ⟨0x10, .relative, .byte .bpl⟩ rfl rfl rfl rfl (fun _ => rfl)

theorem bvc (disp8 : Byte) : Statement (.bvc disp8) :=
  of_row ⟨0x50, .relative, .byte .bvc⟩ rfl rfl rfl rfl (fun _ => rfl)

theorem bvs (disp8 : Byte) : Statement (.bvs disp8) :=
  of_row ⟨0x70, .relative, .byte .bvs⟩ rfl rfl rfl rfl (fun _ => rfl)

theorem incZeroPage (zp8 : Byte) : Statement (.incZeroPage zp8) :=
  of_row ⟨0xE6, .zeroPage, .byte .incZeroPage⟩ rfl rfl rfl rfl (fun _ => rfl)

theorem incZeroPageX (zp8 : Byte) : Statement (.incZeroPageX zp8) :=
  of_row ⟨0xF6, .zeroPageX, .byte .incZeroPageX⟩ rfl rfl rfl rfl (fun _ => rfl)

theorem incAbsolute (addr16 : Word) : Statement (.incAbsolute addr16) :=
  of_row ⟨0xEE, .absolute, .word .incAbsolute⟩ rfl rfl rfl rfl (fun rest => by
    simp [Instr.operand, Operand.bytes, RowForm.take])

theorem incAbsoluteX (addr16 : Word) : Statement (.incAbsoluteX addr16) :=
  of_row ⟨0xFE, .absoluteX, .word .incAbsoluteX⟩ rfl rfl rfl rfl (fun rest => by
    simp [Instr.operand, Operand.bytes, RowForm.take])

theorem decZeroPage (zp8 : Byte) : Statement (.decZeroPage zp8) :=
  of_row ⟨0xC6, .zeroPage, .byte .decZeroPage⟩ rfl rfl rfl rfl (fun _ => rfl)

theorem decZeroPageX (zp8 : Byte) : Statement (.decZeroPageX zp8) :=
  of_row ⟨0xD6, .zeroPageX, .byte .decZeroPageX⟩ rfl rfl rfl rfl (fun _ => rfl)

theorem decAbsolute (addr16 : Word) : Statement (.decAbsolute addr16) :=
  of_row ⟨0xCE, .absolute, .word .decAbsolute⟩ rfl rfl rfl rfl (fun rest => by
    simp [Instr.operand, Operand.bytes, RowForm.take])

theorem decAbsoluteX (addr16 : Word) : Statement (.decAbsoluteX addr16) :=
  of_row ⟨0xDE, .absoluteX, .word .decAbsoluteX⟩ rfl rfl rfl rfl (fun rest => by
    simp [Instr.operand, Operand.bytes, RowForm.take])

theorem inx : Statement .inx :=
  of_row ⟨0xE8, .implicit, .implied .inx⟩ rfl rfl rfl rfl (fun _ => rfl)

theorem iny : Statement .iny :=
  of_row ⟨0xC8, .implicit, .implied .iny⟩ rfl rfl rfl rfl (fun _ => rfl)

theorem dex : Statement .dex :=
  of_row ⟨0xCA, .implicit, .implied .dex⟩ rfl rfl rfl rfl (fun _ => rfl)

theorem dey : Statement .dey :=
  of_row ⟨0x88, .implicit, .implied .dey⟩ rfl rfl rfl rfl (fun _ => rfl)

theorem jmpAbsolute (addr16 : Word) : Statement (.jmpAbsolute addr16) :=
  of_row ⟨0x4C, .absolute, .word .jmpAbsolute⟩ rfl rfl rfl rfl (fun rest => by
    simp [Instr.operand, Operand.bytes, RowForm.take])

theorem jmpIndirect (addr16 : Word) : Statement (.jmpIndirect addr16) :=
  of_row ⟨0x6C, .indirect, .word .jmpIndirect⟩ rfl rfl rfl rfl (fun rest => by
    simp [Instr.operand, Operand.bytes, RowForm.take])

theorem jsr (addr16 : Word) : Statement (.jsr addr16) :=
  of_row ⟨0x20, .absolute, .word .jsr⟩ rfl rfl rfl rfl (fun rest => by
    simp [Instr.operand, Operand.bytes, RowForm.take])

theorem rts : Statement .rts :=
  of_row ⟨0x60, .implicit, .implied .rts⟩ rfl rfl rfl rfl (fun _ => rfl)

theorem aslAccumulator : Statement .aslAccumulator :=
  of_row ⟨0x0A, .accumulator, .implied .aslAccumulator⟩ rfl rfl rfl rfl (fun _ => rfl)

theorem aslZeroPage (zp8 : Byte) : Statement (.aslZeroPage zp8) :=
  of_row ⟨0x06, .zeroPage, .byte .aslZeroPage⟩ rfl rfl rfl rfl (fun _ => rfl)

theorem aslZeroPageX (zp8 : Byte) : Statement (.aslZeroPageX zp8) :=
  of_row ⟨0x16, .zeroPageX, .byte .aslZeroPageX⟩ rfl rfl rfl rfl (fun _ => rfl)

theorem aslAbsolute (addr16 : Word) : Statement (.aslAbsolute addr16) :=
  of_row ⟨0x0E, .absolute, .word .aslAbsolute⟩ rfl rfl rfl rfl (fun rest => by
    simp [Instr.operand, Operand.bytes, RowForm.take])

theorem aslAbsoluteX (addr16 : Word) : Statement (.aslAbsoluteX addr16) :=
  of_row ⟨0x1E, .absoluteX, .word .aslAbsoluteX⟩ rfl rfl rfl rfl (fun rest => by
    simp [Instr.operand, Operand.bytes, RowForm.take])

theorem lsrAccumulator : Statement .lsrAccumulator :=
  of_row ⟨0x4A, .accumulator, .implied .lsrAccumulator⟩ rfl rfl rfl rfl (fun _ => rfl)

theorem lsrZeroPage (zp8 : Byte) : Statement (.lsrZeroPage zp8) :=
  of_row ⟨0x46, .zeroPage, .byte .lsrZeroPage⟩ rfl rfl rfl rfl (fun _ => rfl)

theorem lsrZeroPageX (zp8 : Byte) : Statement (.lsrZeroPageX zp8) :=
  of_row ⟨0x56, .zeroPageX, .byte .lsrZeroPageX⟩ rfl rfl rfl rfl (fun _ => rfl)

theorem lsrAbsolute (addr16 : Word) : Statement (.lsrAbsolute addr16) :=
  of_row ⟨0x4E, .absolute, .word .lsrAbsolute⟩ rfl rfl rfl rfl (fun rest => by
    simp [Instr.operand, Operand.bytes, RowForm.take])

theorem lsrAbsoluteX (addr16 : Word) : Statement (.lsrAbsoluteX addr16) :=
  of_row ⟨0x5E, .absoluteX, .word .lsrAbsoluteX⟩ rfl rfl rfl rfl (fun rest => by
    simp [Instr.operand, Operand.bytes, RowForm.take])

theorem rolAccumulator : Statement .rolAccumulator :=
  of_row ⟨0x2A, .accumulator, .implied .rolAccumulator⟩ rfl rfl rfl rfl (fun _ => rfl)

theorem rolZeroPage (zp8 : Byte) : Statement (.rolZeroPage zp8) :=
  of_row ⟨0x26, .zeroPage, .byte .rolZeroPage⟩ rfl rfl rfl rfl (fun _ => rfl)

theorem rolZeroPageX (zp8 : Byte) : Statement (.rolZeroPageX zp8) :=
  of_row ⟨0x36, .zeroPageX, .byte .rolZeroPageX⟩ rfl rfl rfl rfl (fun _ => rfl)

theorem rolAbsolute (addr16 : Word) : Statement (.rolAbsolute addr16) :=
  of_row ⟨0x2E, .absolute, .word .rolAbsolute⟩ rfl rfl rfl rfl (fun rest => by
    simp [Instr.operand, Operand.bytes, RowForm.take])

theorem rolAbsoluteX (addr16 : Word) : Statement (.rolAbsoluteX addr16) :=
  of_row ⟨0x3E, .absoluteX, .word .rolAbsoluteX⟩ rfl rfl rfl rfl (fun rest => by
    simp [Instr.operand, Operand.bytes, RowForm.take])

theorem rorAccumulator : Statement .rorAccumulator :=
  of_row ⟨0x6A, .accumulator, .implied .rorAccumulator⟩ rfl rfl rfl rfl (fun _ => rfl)

theorem rorZeroPage (zp8 : Byte) : Statement (.rorZeroPage zp8) :=
  of_row ⟨0x66, .zeroPage, .byte .rorZeroPage⟩ rfl rfl rfl rfl (fun _ => rfl)

theorem rorZeroPageX (zp8 : Byte) : Statement (.rorZeroPageX zp8) :=
  of_row ⟨0x76, .zeroPageX, .byte .rorZeroPageX⟩ rfl rfl rfl rfl (fun _ => rfl)

theorem rorAbsolute (addr16 : Word) : Statement (.rorAbsolute addr16) :=
  of_row ⟨0x6E, .absolute, .word .rorAbsolute⟩ rfl rfl rfl rfl (fun rest => by
    simp [Instr.operand, Operand.bytes, RowForm.take])

theorem rorAbsoluteX (addr16 : Word) : Statement (.rorAbsoluteX addr16) :=
  of_row ⟨0x7E, .absoluteX, .word .rorAbsoluteX⟩ rfl rfl rfl rfl (fun rest => by
    simp [Instr.operand, Operand.bytes, RowForm.take])

theorem pha : Statement .pha :=
  of_row ⟨0x48, .implicit, .implied .pha⟩ rfl rfl rfl rfl (fun _ => rfl)

theorem php : Statement .php :=
  of_row ⟨0x08, .implicit, .implied .php⟩ rfl rfl rfl rfl (fun _ => rfl)

theorem pla : Statement .pla :=
  of_row ⟨0x68, .implicit, .implied .pla⟩ rfl rfl rfl rfl (fun _ => rfl)

theorem plp : Statement .plp :=
  of_row ⟨0x28, .implicit, .implied .plp⟩ rfl rfl rfl rfl (fun _ => rfl)

theorem clc : Statement .clc :=
  of_row ⟨0x18, .implicit, .implied .clc⟩ rfl rfl rfl rfl (fun _ => rfl)

theorem cld : Statement .cld :=
  of_row ⟨0xD8, .implicit, .implied .cld⟩ rfl rfl rfl rfl (fun _ => rfl)

theorem cli : Statement .cli :=
  of_row ⟨0x58, .implicit, .implied .cli⟩ rfl rfl rfl rfl (fun _ => rfl)

theorem clv : Statement .clv :=
  of_row ⟨0xB8, .implicit, .implied .clv⟩ rfl rfl rfl rfl (fun _ => rfl)

theorem sec : Statement .sec :=
  of_row ⟨0x38, .implicit, .implied .sec⟩ rfl rfl rfl rfl (fun _ => rfl)

theorem sed : Statement .sed :=
  of_row ⟨0xF8, .implicit, .implied .sed⟩ rfl rfl rfl rfl (fun _ => rfl)

theorem sei : Statement .sei :=
  of_row ⟨0x78, .implicit, .implied .sei⟩ rfl rfl rfl rfl (fun _ => rfl)

theorem tax : Statement .tax :=
  of_row ⟨0xAA, .implicit, .implied .tax⟩ rfl rfl rfl rfl (fun _ => rfl)

theorem tay : Statement .tay :=
  of_row ⟨0xA8, .implicit, .implied .tay⟩ rfl rfl rfl rfl (fun _ => rfl)

theorem txa : Statement .txa :=
  of_row ⟨0x8A, .implicit, .implied .txa⟩ rfl rfl rfl rfl (fun _ => rfl)

theorem tya : Statement .tya :=
  of_row ⟨0x98, .implicit, .implied .tya⟩ rfl rfl rfl rfl (fun _ => rfl)

theorem tsx : Statement .tsx :=
  of_row ⟨0xBA, .implicit, .implied .tsx⟩ rfl rfl rfl rfl (fun _ => rfl)

theorem txs : Statement .txs :=
  of_row ⟨0x9A, .implicit, .implied .txs⟩ rfl rfl rfl rfl (fun _ => rfl)

theorem brk : Statement .brk :=
  of_row ⟨0x00, .implicit, .implied .brk⟩ rfl rfl rfl rfl (fun _ => rfl)

theorem nop : Statement .nop :=
  of_row ⟨0xEA, .implicit, .implied .nop⟩ rfl rfl rfl rfl (fun _ => rfl)

theorem rti : Statement .rti :=
  of_row ⟨0x40, .implicit, .implied .rti⟩ rfl rfl rfl rfl (fun _ => rfl)

/-- Every instruction. -/
theorem all (i : Instr) : Statement i := by
  cases i
  · exact adcImmediate _
  · exact adcZeroPage _
  · exact adcZeroPageX _
  · exact adcAbsolute _
  · exact adcAbsoluteX _
  · exact adcAbsoluteY _
  · exact adcIndirectX _
  · exact adcIndirectY _
  · exact sbcImmediate _
  · exact sbcZeroPage _
  · exact sbcZeroPageX _
  · exact sbcAbsolute _
  · exact sbcAbsoluteX _
  · exact sbcAbsoluteY _
  · exact sbcIndirectX _
  · exact sbcIndirectY _
  · exact cmpImmediate _
  · exact cmpZeroPage _
  · exact cmpZeroPageX _
  · exact cmpAbsolute _
  · exact cmpAbsoluteX _
  · exact cmpAbsoluteY _
  · exact cmpIndirectX _
  · exact cmpIndirectY _
  · exact cpxImmediate _
  · exact cpxZeroPage _
  · exact cpxAbsolute _
  · exact cpyImmediate _
  · exact cpyZeroPage _
  · exact cpyAbsolute _
  · exact andImmediate _
  · exact andZeroPage _
  · exact andZeroPageX _
  · exact andAbsolute _
  · exact andAbsoluteX _
  · exact andAbsoluteY _
  · exact andIndirectX _
  · exact andIndirectY _
  · exact oraImmediate _
  · exact oraZeroPage _
  · exact oraZeroPageX _
  · exact oraAbsolute _
  · exact oraAbsoluteX _
  · exact oraAbsoluteY _
  · exact oraIndirectX _
  · exact oraIndirectY _
  · exact eorImmediate _
  · exact eorZeroPage _
  · exact eorZeroPageX _
  · exact eorAbsolute _
  · exact eorAbsoluteX _
  · exact eorAbsoluteY _
  · exact eorIndirectX _
  · exact eorIndirectY _
  · exact bitZeroPage _
  · exact bitAbsolute _
  · exact ldaImmediate _
  · exact ldaZeroPage _
  · exact ldaZeroPageX _
  · exact ldaAbsolute _
  · exact ldaAbsoluteX _
  · exact ldaAbsoluteY _
  · exact ldaIndirectX _
  · exact ldaIndirectY _
  · exact ldxImmediate _
  · exact ldxZeroPage _
  · exact ldxZeroPageY _
  · exact ldxAbsolute _
  · exact ldxAbsoluteY _
  · exact ldyImmediate _
  · exact ldyZeroPage _
  · exact ldyZeroPageX _
  · exact ldyAbsolute _
  · exact ldyAbsoluteX _
  · exact staZeroPage _
  · exact staZeroPageX _
  · exact staAbsolute _
  · exact staAbsoluteX _
  · exact staAbsoluteY _
  · exact staIndirectX _
  · exact staIndirectY _
  · exact stxZeroPage _
  · exact stxZeroPageY _
  · exact stxAbsolute _
  · exact styZeroPage _
  · exact styZeroPageX _
  · exact styAbsolute _
  · exact bcc _
  · exact bcs _
  · exact beq _
  · exact bmi _
  · exact bne _
  · exact bpl _
  · exact bvc _
  · exact bvs _
  · exact incZeroPage _
  · exact incZeroPageX _
  · exact incAbsolute _
  · exact incAbsoluteX _
  · exact decZeroPage _
  · exact decZeroPageX _
  · exact decAbsolute _
  · exact decAbsoluteX _
  · exact inx
  · exact iny
  · exact dex
  · exact dey
  · exact jmpAbsolute _
  · exact jmpIndirect _
  · exact jsr _
  · exact rts
  · exact aslAccumulator
  · exact aslZeroPage _
  · exact aslZeroPageX _
  · exact aslAbsolute _
  · exact aslAbsoluteX _
  · exact lsrAccumulator
  · exact lsrZeroPage _
  · exact lsrZeroPageX _
  · exact lsrAbsolute _
  · exact lsrAbsoluteX _
  · exact rolAccumulator
  · exact rolZeroPage _
  · exact rolZeroPageX _
  · exact rolAbsolute _
  · exact rolAbsoluteX _
  · exact rorAccumulator
  · exact rorZeroPage _
  · exact rorZeroPageX _
  · exact rorAbsolute _
  · exact rorAbsoluteX _
  · exact pha
  · exact php
  · exact pla
  · exact plp
  · exact clc
  · exact cld
  · exact cli
  · exact clv
  · exact sec
  · exact sed
  · exact sei
  · exact tax
  · exact tay
  · exact txa
  · exact tya
  · exact tsx
  · exact txs
  · exact brk
  · exact nop
  · exact rti

end Sys2Proof.Laws.Encoding
end

