-- ==== Sys2Proof/Laws/Step.lean ====
section
/-! SUPPORT. The step, said once: what the fetch gives and what a step can answer. -/

namespace Sys2Proof.Machine

/-- A fetch fails only on an unmapped opcode byte. -/
theorem fetch_error {s : State} {e : DecodeError} (h : fetch s = .error e) :
    e = .invalidOpcode (s.read s.pc) ∧ lookupRow opcodeTable (s.read s.pc) = none := by
  unfold fetch fetchBytes at h
  cases hr : lookupRow opcodeTable (s.read s.pc) with
  | none =>
    simp only [decode, hr, Except.map, Except.error.injEq] at h
    exact ⟨h.symm, rfl⟩
  | some r =>
    obtain ⟨i, rest, ht⟩ := r.form.take_three (s.read (s.pc + 1)) (s.read (s.pc + 2))
    rw [decode_of_lookup hr, ht] at h
    simp [Except.map] at h

/-- An instruction a row makes has the row's opcode byte and mode. -/
theorem opcode_of_take {r : OpcodeRow} (h : r ∈ opcodeTable) {bytes rest : List Byte} {i : Instr}
    (ht : r.form.take bytes = .ok (i, rest)) : i.opcode = r.opcode ∧ i.mode = r.mode := by
  have hf := opcodeTable_fits r h
  unfold OpcodeRow.Fits at hf
  rcases RowForm.take_ok ht with ⟨hr, -⟩ | ⟨g, v, hr, -, rfl⟩ | ⟨g, lo, hi, hr, -, rfl⟩ <;> rw [hr] at hf
  · exact ⟨hf.1, hf.2.1⟩
  · exact ⟨(hf v).1, (hf v).2.1⟩
  · exact ⟨(hf _).1, (hf _).2.1⟩

/-- A fetch that succeeds gives an instruction of the opcode byte at PC. -/
theorem fetch_ok {s : State} {i : Instr} (h : fetch s = .ok i) : i.opcode = s.read s.pc := by
  unfold fetch fetchBytes at h
  cases hr : lookupRow opcodeTable (s.read s.pc) with
  | none => simp [decode, hr, Except.map] at h
  | some r =>
    obtain ⟨j, rest, ht⟩ := r.form.take_three (s.read (s.pc + 1)) (s.read (s.pc + 2))
    rw [decode_of_lookup hr, ht] at h
    simp only [Except.map, Except.ok.injEq] at h
    subst h
    have hm := lookupRow_some hr
    rw [(opcode_of_take hm.1 ht).1, hm.2]

/-- What a step can answer. -/
theorem step_cases {s t : State} (h : step s = .next t) :
    (s.run ≠ .running ∧ t = s) ∨
    (s.run = .running ∧ ∃ i, fetch s = .ok i ∧ exec i s = .next t) ∨
    (s.run = .running ∧ lookupRow opcodeTable (s.read s.pc) = none ∧
      t = s.setRun (.faulted ⟨.invalidOpcode, s.read s.pc, s.pc⟩)) := by
  unfold step sequencerStep at h
  cases hrun : s.run with
  | running =>
    simp only [hrun] at h
    unfold runningStep at h
    split at h
    · exact .inr (.inl ⟨rfl, _, by assumption, h⟩)
    · rename_i e he
      exact .inr (.inr ⟨rfl, (fetch_error he).2, raiseError_next.mp h⟩)
  | _ =>
    simp only [hrun, Host.Outcome.next.injEq] at h
    exact .inl ⟨nofun, h.symm⟩

end Sys2Proof.Machine
end

