-- ==== Sys2Proof/Tests/Slice0.lean ====
section
/-! SUPPORT. Tests of the model: the well-formedness checks on ill-formed terms, one word for every row of the opcode table, the spec's own
test vectors (spec/95_test_vectors.md, one step each, expected results copied from there), and a witness for the hypotheses of each
statement. -/

open Sys2Proof Sys2Proof.Machine

-- Well-formedness: each check refuses an ill-formed term

theorem test_store_has_no_immediate_form : formExists .sta .immediate = false := by decide
theorem test_increment_has_no_accumulator_form : formExists .inc .accumulator = false := by decide
theorem test_load_x_has_no_x_indexed_form : formExists .ldx .zeroPageX = false := by decide
theorem test_jump_has_no_zero_page_form : formExists .jmp .zeroPage = false := by decide
theorem test_absolute_takes_no_byte : Mode.takes .absolute (.byte 0x12) = false := by decide
theorem test_immediate_takes_no_word : Mode.takes .immediate (.word 0x0012) = false := by decide
theorem test_implicit_takes_no_operand : Mode.takes .implicit (.byte 0x12) = false := by decide
theorem test_well_formed_instruction : Instr.wf (.staAbsoluteX 0x1234) = true := by decide

-- Decoding: the encoding column of spec/opcode_table.json, written out, with 0xA5 as byte operand and 0x34 0x12 as word operand

/-- The one instruction some bytes are. -/
def decodesTo (bytes : List Byte) (i : Instr) : Bool := match decode bytes with
  | .ok (j, rest) => decide (i = j) && rest.isEmpty
  | .error _ => false

theorem test_decode_arithmetic : (decodesTo [0b01101001, 0xA5] (.adcImmediate 0xA5) &&
    decodesTo [0b01100101, 0xA5] (.adcZeroPage 0xA5) &&
    decodesTo [0b01110101, 0xA5] (.adcZeroPageX 0xA5) &&
    decodesTo [0b01101101, 0x34, 0x12] (.adcAbsolute 0x1234) &&
    decodesTo [0b01111101, 0x34, 0x12] (.adcAbsoluteX 0x1234) &&
    decodesTo [0b01111001, 0x34, 0x12] (.adcAbsoluteY 0x1234) &&
    decodesTo [0b01100001, 0xA5] (.adcIndirectX 0xA5) &&
    decodesTo [0b01110001, 0xA5] (.adcIndirectY 0xA5) &&
    decodesTo [0b11101001, 0xA5] (.sbcImmediate 0xA5) &&
    decodesTo [0b11100101, 0xA5] (.sbcZeroPage 0xA5) &&
    decodesTo [0b11110101, 0xA5] (.sbcZeroPageX 0xA5) &&
    decodesTo [0b11101101, 0x34, 0x12] (.sbcAbsolute 0x1234) &&
    decodesTo [0b11111101, 0x34, 0x12] (.sbcAbsoluteX 0x1234) &&
    decodesTo [0b11111001, 0x34, 0x12] (.sbcAbsoluteY 0x1234) &&
    decodesTo [0b11100001, 0xA5] (.sbcIndirectX 0xA5) &&
    decodesTo [0b11110001, 0xA5] (.sbcIndirectY 0xA5) &&
    decodesTo [0b11001001, 0xA5] (.cmpImmediate 0xA5) &&
    decodesTo [0b11000101, 0xA5] (.cmpZeroPage 0xA5) &&
    decodesTo [0b11010101, 0xA5] (.cmpZeroPageX 0xA5) &&
    decodesTo [0b11001101, 0x34, 0x12] (.cmpAbsolute 0x1234) &&
    decodesTo [0b11011101, 0x34, 0x12] (.cmpAbsoluteX 0x1234) &&
    decodesTo [0b11011001, 0x34, 0x12] (.cmpAbsoluteY 0x1234) &&
    decodesTo [0b11000001, 0xA5] (.cmpIndirectX 0xA5) &&
    decodesTo [0b11010001, 0xA5] (.cmpIndirectY 0xA5) &&
    decodesTo [0b11100000, 0xA5] (.cpxImmediate 0xA5) &&
    decodesTo [0b11100100, 0xA5] (.cpxZeroPage 0xA5) &&
    decodesTo [0b11101100, 0x34, 0x12] (.cpxAbsolute 0x1234) &&
    decodesTo [0b11000000, 0xA5] (.cpyImmediate 0xA5) &&
    decodesTo [0b11000100, 0xA5] (.cpyZeroPage 0xA5) &&
    decodesTo [0b11001100, 0x34, 0x12] (.cpyAbsolute 0x1234)) = true := by decide

theorem test_decode_logical : (decodesTo [0b00101001, 0xA5] (.andImmediate 0xA5) &&
    decodesTo [0b00100101, 0xA5] (.andZeroPage 0xA5) &&
    decodesTo [0b00110101, 0xA5] (.andZeroPageX 0xA5) &&
    decodesTo [0b00101101, 0x34, 0x12] (.andAbsolute 0x1234) &&
    decodesTo [0b00111101, 0x34, 0x12] (.andAbsoluteX 0x1234) &&
    decodesTo [0b00111001, 0x34, 0x12] (.andAbsoluteY 0x1234) &&
    decodesTo [0b00100001, 0xA5] (.andIndirectX 0xA5) &&
    decodesTo [0b00110001, 0xA5] (.andIndirectY 0xA5) &&
    decodesTo [0b00001001, 0xA5] (.oraImmediate 0xA5) &&
    decodesTo [0b00000101, 0xA5] (.oraZeroPage 0xA5) &&
    decodesTo [0b00010101, 0xA5] (.oraZeroPageX 0xA5) &&
    decodesTo [0b00001101, 0x34, 0x12] (.oraAbsolute 0x1234) &&
    decodesTo [0b00011101, 0x34, 0x12] (.oraAbsoluteX 0x1234) &&
    decodesTo [0b00011001, 0x34, 0x12] (.oraAbsoluteY 0x1234) &&
    decodesTo [0b00000001, 0xA5] (.oraIndirectX 0xA5) &&
    decodesTo [0b00010001, 0xA5] (.oraIndirectY 0xA5) &&
    decodesTo [0b01001001, 0xA5] (.eorImmediate 0xA5) &&
    decodesTo [0b01000101, 0xA5] (.eorZeroPage 0xA5) &&
    decodesTo [0b01010101, 0xA5] (.eorZeroPageX 0xA5) &&
    decodesTo [0b01001101, 0x34, 0x12] (.eorAbsolute 0x1234) &&
    decodesTo [0b01011101, 0x34, 0x12] (.eorAbsoluteX 0x1234) &&
    decodesTo [0b01011001, 0x34, 0x12] (.eorAbsoluteY 0x1234) &&
    decodesTo [0b01000001, 0xA5] (.eorIndirectX 0xA5) &&
    decodesTo [0b01010001, 0xA5] (.eorIndirectY 0xA5) &&
    decodesTo [0b00100100, 0xA5] (.bitZeroPage 0xA5) &&
    decodesTo [0b00101100, 0x34, 0x12] (.bitAbsolute 0x1234)) = true := by decide

theorem test_decode_loadStore : (decodesTo [0b10101001, 0xA5] (.ldaImmediate 0xA5) &&
    decodesTo [0b10100101, 0xA5] (.ldaZeroPage 0xA5) &&
    decodesTo [0b10110101, 0xA5] (.ldaZeroPageX 0xA5) &&
    decodesTo [0b10101101, 0x34, 0x12] (.ldaAbsolute 0x1234) &&
    decodesTo [0b10111101, 0x34, 0x12] (.ldaAbsoluteX 0x1234) &&
    decodesTo [0b10111001, 0x34, 0x12] (.ldaAbsoluteY 0x1234) &&
    decodesTo [0b10100001, 0xA5] (.ldaIndirectX 0xA5) &&
    decodesTo [0b10110001, 0xA5] (.ldaIndirectY 0xA5) &&
    decodesTo [0b10100010, 0xA5] (.ldxImmediate 0xA5) &&
    decodesTo [0b10100110, 0xA5] (.ldxZeroPage 0xA5) &&
    decodesTo [0b10110110, 0xA5] (.ldxZeroPageY 0xA5) &&
    decodesTo [0b10101110, 0x34, 0x12] (.ldxAbsolute 0x1234) &&
    decodesTo [0b10111110, 0x34, 0x12] (.ldxAbsoluteY 0x1234) &&
    decodesTo [0b10100000, 0xA5] (.ldyImmediate 0xA5) &&
    decodesTo [0b10100100, 0xA5] (.ldyZeroPage 0xA5) &&
    decodesTo [0b10110100, 0xA5] (.ldyZeroPageX 0xA5) &&
    decodesTo [0b10101100, 0x34, 0x12] (.ldyAbsolute 0x1234) &&
    decodesTo [0b10111100, 0x34, 0x12] (.ldyAbsoluteX 0x1234) &&
    decodesTo [0b10000101, 0xA5] (.staZeroPage 0xA5) &&
    decodesTo [0b10010101, 0xA5] (.staZeroPageX 0xA5) &&
    decodesTo [0b10001101, 0x34, 0x12] (.staAbsolute 0x1234) &&
    decodesTo [0b10011101, 0x34, 0x12] (.staAbsoluteX 0x1234) &&
    decodesTo [0b10011001, 0x34, 0x12] (.staAbsoluteY 0x1234) &&
    decodesTo [0b10000001, 0xA5] (.staIndirectX 0xA5) &&
    decodesTo [0b10010001, 0xA5] (.staIndirectY 0xA5) &&
    decodesTo [0b10000110, 0xA5] (.stxZeroPage 0xA5) &&
    decodesTo [0b10010110, 0xA5] (.stxZeroPageY 0xA5) &&
    decodesTo [0b10001110, 0x34, 0x12] (.stxAbsolute 0x1234) &&
    decodesTo [0b10000100, 0xA5] (.styZeroPage 0xA5) &&
    decodesTo [0b10010100, 0xA5] (.styZeroPageX 0xA5) &&
    decodesTo [0b10001100, 0x34, 0x12] (.styAbsolute 0x1234)) = true := by decide

theorem test_decode_branches : (decodesTo [0b10010000, 0xA5] (.bcc 0xA5) &&
    decodesTo [0b10110000, 0xA5] (.bcs 0xA5) &&
    decodesTo [0b11110000, 0xA5] (.beq 0xA5) &&
    decodesTo [0b00110000, 0xA5] (.bmi 0xA5) &&
    decodesTo [0b11010000, 0xA5] (.bne 0xA5) &&
    decodesTo [0b00010000, 0xA5] (.bpl 0xA5) &&
    decodesTo [0b01010000, 0xA5] (.bvc 0xA5) &&
    decodesTo [0b01110000, 0xA5] (.bvs 0xA5)) = true := by decide

theorem test_decode_incrementDecrement : (decodesTo [0b11100110, 0xA5] (.incZeroPage 0xA5) &&
    decodesTo [0b11110110, 0xA5] (.incZeroPageX 0xA5) &&
    decodesTo [0b11101110, 0x34, 0x12] (.incAbsolute 0x1234) &&
    decodesTo [0b11111110, 0x34, 0x12] (.incAbsoluteX 0x1234) &&
    decodesTo [0b11000110, 0xA5] (.decZeroPage 0xA5) &&
    decodesTo [0b11010110, 0xA5] (.decZeroPageX 0xA5) &&
    decodesTo [0b11001110, 0x34, 0x12] (.decAbsolute 0x1234) &&
    decodesTo [0b11011110, 0x34, 0x12] (.decAbsoluteX 0x1234) &&
    decodesTo [0b11101000] .inx &&
    decodesTo [0b11001000] .iny &&
    decodesTo [0b11001010] .dex &&
    decodesTo [0b10001000] .dey) = true := by decide

theorem test_decode_jumpsCalls : (decodesTo [0b01001100, 0x34, 0x12] (.jmpAbsolute 0x1234) &&
    decodesTo [0b01101100, 0x34, 0x12] (.jmpIndirect 0x1234) &&
    decodesTo [0b00100000, 0x34, 0x12] (.jsr 0x1234) &&
    decodesTo [0b01100000] .rts) = true := by decide

theorem test_decode_shifts : (decodesTo [0b00001010] .aslAccumulator &&
    decodesTo [0b00000110, 0xA5] (.aslZeroPage 0xA5) &&
    decodesTo [0b00010110, 0xA5] (.aslZeroPageX 0xA5) &&
    decodesTo [0b00001110, 0x34, 0x12] (.aslAbsolute 0x1234) &&
    decodesTo [0b00011110, 0x34, 0x12] (.aslAbsoluteX 0x1234) &&
    decodesTo [0b01001010] .lsrAccumulator &&
    decodesTo [0b01000110, 0xA5] (.lsrZeroPage 0xA5) &&
    decodesTo [0b01010110, 0xA5] (.lsrZeroPageX 0xA5) &&
    decodesTo [0b01001110, 0x34, 0x12] (.lsrAbsolute 0x1234) &&
    decodesTo [0b01011110, 0x34, 0x12] (.lsrAbsoluteX 0x1234) &&
    decodesTo [0b00101010] .rolAccumulator &&
    decodesTo [0b00100110, 0xA5] (.rolZeroPage 0xA5) &&
    decodesTo [0b00110110, 0xA5] (.rolZeroPageX 0xA5) &&
    decodesTo [0b00101110, 0x34, 0x12] (.rolAbsolute 0x1234) &&
    decodesTo [0b00111110, 0x34, 0x12] (.rolAbsoluteX 0x1234) &&
    decodesTo [0b01101010] .rorAccumulator &&
    decodesTo [0b01100110, 0xA5] (.rorZeroPage 0xA5) &&
    decodesTo [0b01110110, 0xA5] (.rorZeroPageX 0xA5) &&
    decodesTo [0b01101110, 0x34, 0x12] (.rorAbsolute 0x1234) &&
    decodesTo [0b01111110, 0x34, 0x12] (.rorAbsoluteX 0x1234)) = true := by decide

theorem test_decode_stackOperations : (decodesTo [0b01001000] .pha &&
    decodesTo [0b00001000] .php &&
    decodesTo [0b01101000] .pla &&
    decodesTo [0b00101000] .plp) = true := by decide

theorem test_decode_statusFlagChange : (decodesTo [0b00011000] .clc &&
    decodesTo [0b11011000] .cld &&
    decodesTo [0b01011000] .cli &&
    decodesTo [0b10111000] .clv &&
    decodesTo [0b00111000] .sec &&
    decodesTo [0b11111000] .sed &&
    decodesTo [0b01111000] .sei) = true := by decide

theorem test_decode_registerTransfers : (decodesTo [0b10101010] .tax &&
    decodesTo [0b10101000] .tay &&
    decodesTo [0b10001010] .txa &&
    decodesTo [0b10011000] .tya &&
    decodesTo [0b10111010] .tsx &&
    decodesTo [0b10011010] .txs) = true := by decide

theorem test_decode_systemFunctions : (decodesTo [0b00000000] .brk &&
    decodesTo [0b11101010] .nop &&
    decodesTo [0b01000000] .rti) = true := by decide

theorem test_decode_rejects_an_unmapped_byte : decode [0x80, 0x00, 0x00] = .error (.invalidOpcode 0x80) := by rfl
theorem test_decode_rejects_a_short_list : decode [0xAD, 0x00] = .error .truncated := by rfl
theorem test_table_word_numbering : decodeTableWord 24 0x1234AD = some (.ldaAbsolute 0x1234) := by decide
theorem test_table_word_zeroes_the_rest : decodeTableWord 8 0x12AD = some (.ldaAbsolute 0x0000) := by decide

-- One step: the spec's vectors

/-- A byte put in memory. -/
def poke (addr : Word) (v : Byte) (s : State) : State := s.write addr v

/-- The start state of 95_test_vectors.md: the bytes at `addr`, PC there, Running. -/
def booted (addr : Word) (bytes : List Byte) (s : State) : State := startRun ((placeBytes addr bytes s).setPc addr)

/-- One step from the booted state answers the whole state wanted. -/
def oneStep (addr : Word) (bytes : List Byte) (s : State) (want : State → State) : Bool :=
  match step (booted addr bytes s) with
  | .next t => decide (t = want (booted addr bytes s))
  | .fault _ | .refused _ => false

/-- 95_test_vectors.md V30.1: ZeroPageX wraps in page 0. -/
theorem test_V30_1 : oneStep 0x0600 [0xB5, 0x80] (poke 0x007F 0x42 { State.reset with x := 0xFF })
    (fun b => { b with a := 0x42, pc := 0x0602 }) = true := by decide

/-- 95_test_vectors.md V30.2: ZeroPageY wraps in page 0. -/
theorem test_V30_2 : oneStep 0x0600 [0xB6, 0xFF] (poke 0x0001 0x37 { State.reset with y := 0x02 })
    (fun b => { b with x := 0x37, pc := 0x0602 }) = true := by decide

/-- 95_test_vectors.md V30.3: AbsoluteX crosses a page. -/
theorem test_V30_3 : oneStep 0x0600 [0xBD, 0xFF, 0x12] (poke 0x1300 0x99 { State.reset with x := 0x01 })
    (fun b => { b with a := 0x99, p := 0x80, pc := 0x0603 }) = true := by decide

/-- 95_test_vectors.md V30.4: AbsoluteX wraps at 16 bits. -/
theorem test_V30_4 : oneStep 0x0600 [0xBD, 0xFF, 0xFF] (poke 0x0001 0x05 { State.reset with x := 0x02 })
    (fun b => { b with a := 0x05, pc := 0x0603 }) = true := by decide

/-- 95_test_vectors.md V30.5: AbsoluteY. -/
theorem test_V30_5 : oneStep 0x0600 [0xB9, 0x00, 0x20] (poke 0x2010 0x01 { State.reset with y := 0x10 })
    (fun b => { b with a := 0x01, pc := 0x0603 }) = true := by decide

/-- 95_test_vectors.md V30.6: IndirectX. -/
theorem test_V30_6 : oneStep 0x0600 [0xA1, 0x20] (poke 0x3000 0xAB (poke 0x0025 0x30 (poke 0x0024 0x00 { State.reset with x := 0x04 })))
    (fun b => { b with a := 0xAB, p := 0x80, pc := 0x0602 }) = true := by decide

/-- 95_test_vectors.md V30.7: IndirectX: zp8 + X wraps to 0x00. -/
theorem test_V30_7 : oneStep 0x0600 [0xA1, 0xFF] (poke 0x1234 0x5A (poke 0x0001 0x12 (poke 0x0000 0x34 { State.reset with x := 0x01 })))
    (fun b => { b with a := 0x5A, pc := 0x0602 }) = true := by decide

/-- 95_test_vectors.md V30.10: IndirectY: 16-bit add crosses a page (pins 90_conflicts.md C6). -/
theorem test_V30_10 : oneStep 0x0600 [0xB1, 0x40] (poke 0x1300 0x77 (poke 0x0041 0x12 (poke 0x0040 0xFF { State.reset with y := 0x01 })))
    (fun b => { b with a := 0x77, pc := 0x0602 }) = true := by decide

/-- 95_test_vectors.md V30.11: IndirectY wraps at 16 bits. -/
theorem test_V30_11 : oneStep 0x0600 [0xB1, 0x40] (poke 0x0001 0x66 (poke 0x0041 0xFF (poke 0x0040 0xFF { State.reset with y := 0x02 })))
    (fun b => { b with a := 0x66, pc := 0x0602 }) = true := by decide

/-- 95_test_vectors.md V30.12: Indirect: no page wrap of the pointer. -/
theorem test_V30_12 : oneStep 0x0600 [0x6C, 0xFF, 0x10] (poke 0x1000 0x56 (poke 0x1100 0x12 (poke 0x10FF 0x34 State.reset)))
    (fun b => { b with pc := 0x1234 }) = true := by decide

/-- 95_test_vectors.md V30.13: operand byte fetched from 0x0000 after 0xFFFF. -/
theorem test_V30_13 : oneStep 0xFFFF [0xA9, 0x3C] State.reset
    (fun b => { b with a := 0x3C, pc := 0x0001 }) = true := by decide

/-- 95_test_vectors.md V30.14: Immediate. -/
theorem test_V30_14 : oneStep 0x0600 [0xA2, 0x7F] State.reset
    (fun b => { b with x := 0x7F, pc := 0x0602 }) = true := by decide

/-- 95_test_vectors.md V40.1: ADC, carry out. -/
theorem test_V40_1 : oneStep 0x0600 [0x69, 0xC4] { State.reset with a := 0xC0 }
    (fun b => { b with a := 0x84, p := 0x81, pc := 0x0602 }) = true := by decide

/-- 95_test_vectors.md V40.2: ADC 0x80 + 0x80. -/
theorem test_V40_2 : oneStep 0x0600 [0x69, 0x80] { State.reset with a := 0x80 }
    (fun b => { b with a := 0x00, p := 0x43, pc := 0x0602 }) = true := by decide

/-- 95_test_vectors.md V40.7: ADC ZeroPage. -/
theorem test_V40_7 : oneStep 0x0600 [0x65, 0x10] (poke 0x0010 0x02 { State.reset with a := 0x01 })
    (fun b => { b with a := 0x03, pc := 0x0602 }) = true := by decide

/-- 95_test_vectors.md V40.8: SBC, no borrow. -/
theorem test_V40_8 : oneStep 0x0600 [0xE9, 0x03] { State.reset with a := 0x05, p := 0x01 }
    (fun b => { b with a := 0x02, p := 0x01, pc := 0x0602 }) = true := by decide

/-- 95_test_vectors.md V40.9: SBC with borrow in. -/
theorem test_V40_9 : oneStep 0x0600 [0xE9, 0x00] { State.reset with a := 0x00 }
    (fun b => { b with a := 0xFF, p := 0x80, pc := 0x0602 }) = true := by decide

/-- 95_test_vectors.md V40.14: CMP less. -/
theorem test_V40_14 : oneStep 0x0600 [0xC9, 0x41] { State.reset with a := 0x40 }
    (fun b => { b with p := 0x80, pc := 0x0602 }) = true := by decide

/-- 95_test_vectors.md V40.15: CMP equal. -/
theorem test_V40_15 : oneStep 0x0600 [0xC9, 0x40] { State.reset with a := 0x40 }
    (fun b => { b with p := 0x03, pc := 0x0602 }) = true := by decide

/-- 95_test_vectors.md V40.19: CPX. -/
theorem test_V40_19 : oneStep 0x0600 [0xE0, 0x08] { State.reset with x := 0x10 }
    (fun b => { b with p := 0x01, pc := 0x0602 }) = true := by decide

/-- 95_test_vectors.md V40.20: CPX 0 against 0. -/
theorem test_V40_20 : oneStep 0x0600 [0xE0, 0x00] State.reset
    (fun b => { b with p := 0x03, pc := 0x0602 }) = true := by decide

/-- 95_test_vectors.md V40.21: CPY equal. -/
theorem test_V40_21 : oneStep 0x0600 [0xC0, 0x03] { State.reset with y := 0x03 }
    (fun b => { b with p := 0x03, pc := 0x0602 }) = true := by decide

/-- 95_test_vectors.md V40.22: CPY 0x80 against 0. -/
theorem test_V40_22 : oneStep 0x0600 [0xC0, 0x00] { State.reset with y := 0x80 }
    (fun b => { b with p := 0x81, pc := 0x0602 }) = true := by decide

/-- 95_test_vectors.md V41.1: AND to zero. -/
theorem test_V41_1 : oneStep 0x0600 [0x29, 0x0F] { State.reset with a := 0xF0 }
    (fun b => { b with a := 0x00, p := 0x02, pc := 0x0602 }) = true := by decide

/-- 95_test_vectors.md V41.2: AND 0xFF keeps A. -/
theorem test_V41_2 : oneStep 0x0600 [0x29, 0xFF] { State.reset with a := 0x81 }
    (fun b => { b with p := 0x80, pc := 0x0602 }) = true := by decide

/-- 95_test_vectors.md V41.3: ORA. -/
theorem test_V41_3 : oneStep 0x0600 [0x09, 0x01] { State.reset with a := 0x80 }
    (fun b => { b with a := 0x81, p := 0x80, pc := 0x0602 }) = true := by decide

/-- 95_test_vectors.md V41.4: ORA 0 with 0. -/
theorem test_V41_4 : oneStep 0x0600 [0x09, 0x00] State.reset
    (fun b => { b with p := 0x02, pc := 0x0602 }) = true := by decide

/-- 95_test_vectors.md V41.5: EOR to zero. -/
theorem test_V41_5 : oneStep 0x0600 [0x49, 0xFF] { State.reset with a := 0xFF }
    (fun b => { b with a := 0x00, p := 0x02, pc := 0x0602 }) = true := by decide

/-- 95_test_vectors.md V41.6: EOR 0xFF complements. -/
theorem test_V41_6 : oneStep 0x0600 [0x49, 0xFF] { State.reset with a := 0x0F }
    (fun b => { b with a := 0xF0, p := 0x80, pc := 0x0602 }) = true := by decide

/-- 95_test_vectors.md V41.7: BIT: N and V from M, Z from A & M. -/
theorem test_V41_7 : oneStep 0x0600 [0x24, 0x10] (poke 0x0010 0xC0 { State.reset with a := 0x01 })
    (fun b => { b with p := 0xC2, pc := 0x0602 }) = true := by decide

/-- 95_test_vectors.md V41.8: BIT clears N, V and Z. -/
theorem test_V41_8 : oneStep 0x0600 [0x2C, 0x00, 0x20] (poke 0x2000 0x3F { State.reset with a := 0xFF, p := 0xC0 })
    (fun b => { b with p := 0x00, pc := 0x0603 }) = true := by decide

/-- 95_test_vectors.md V42.1: LDA zero. -/
theorem test_V42_1 : oneStep 0x0600 [0xA9, 0x00] { State.reset with a := 0x55 }
    (fun b => { b with a := 0x00, p := 0x02, pc := 0x0602 }) = true := by decide

/-- 95_test_vectors.md V42.3: LDX Absolute. -/
theorem test_V42_3 : oneStep 0x0600 [0xAE, 0x34, 0x12] (poke 0x1234 0x01 State.reset)
    (fun b => { b with x := 0x01, pc := 0x0603 }) = true := by decide

/-- 95_test_vectors.md V42.4: LDX AbsoluteY. -/
theorem test_V42_4 : oneStep 0x0600 [0xBE, 0x00, 0x20] (poke 0x20FF 0x90 { State.reset with y := 0xFF })
    (fun b => { b with x := 0x90, p := 0x80, pc := 0x0603 }) = true := by decide

/-- 95_test_vectors.md V42.5: LDY ZeroPageX, zero. -/
theorem test_V42_5 : oneStep 0x0600 [0xB4, 0x10] { State.reset with x := 0x05 }
    (fun b => { b with p := 0x02, pc := 0x0602 }) = true := by decide

/-- 95_test_vectors.md V42.6: LDY Immediate. -/
theorem test_V42_6 : oneStep 0x0600 [0xA0, 0xFF] State.reset
    (fun b => { b with y := 0xFF, p := 0x80, pc := 0x0602 }) = true := by decide

/-- 95_test_vectors.md V42.7: STA writes no flag. -/
theorem test_V42_7 : oneStep 0x0600 [0x8D, 0x00, 0x02] { State.reset with a := 0x42, p := 0x82 }
    (fun b => { (poke 0x0200 0x42 b) with pc := 0x0603 }) = true := by decide

/-- 95_test_vectors.md V42.8: STA IndirectY. -/
theorem test_V42_8 : oneStep 0x0600 [0x91, 0x22] (poke 0x0023 0x04 { State.reset with a := 0x99, y := 0x02 })
    (fun b => { (poke 0x0402 0x99 b) with pc := 0x0602 }) = true := by decide

/-- 95_test_vectors.md V42.9: STX ZeroPageY wraps. -/
theorem test_V42_9 : oneStep 0x0600 [0x96, 0x10] { State.reset with x := 0x11, y := 0xFF }
    (fun b => { (poke 0x000F 0x11 b) with pc := 0x0602 }) = true := by decide

/-- 95_test_vectors.md V42.10: STY Absolute. -/
theorem test_V42_10 : oneStep 0x0600 [0x8C, 0x00, 0x03] { State.reset with y := 0x22 }
    (fun b => { (poke 0x0300 0x22 b) with pc := 0x0603 }) = true := by decide

/-- 95_test_vectors.md V42.11: STA of zero sets no Z. -/
theorem test_V42_11 : oneStep 0x0600 [0x85, 0x30] State.reset
    (fun b => { b with pc := 0x0602 }) = true := by decide

/-- 95_test_vectors.md V43.1: BCC taken. -/
theorem test_V43_1 : oneStep 0x0600 [0x90, 0x05] State.reset
    (fun b => { b with pc := 0x0607 }) = true := by decide

/-- 95_test_vectors.md V43.2: BCC not taken. -/
theorem test_V43_2 : oneStep 0x0600 [0x90, 0x05] { State.reset with p := 0x01 }
    (fun b => { b with pc := 0x0602 }) = true := by decide

/-- 95_test_vectors.md V43.3: BCS taken. -/
theorem test_V43_3 : oneStep 0x0600 [0xB0, 0x10] { State.reset with p := 0x01 }
    (fun b => { b with pc := 0x0612 }) = true := by decide

/-- 95_test_vectors.md V43.4: BEQ taken backward. -/
theorem test_V43_4 : oneStep 0x0610 [0xF0, 0xFB] { State.reset with p := 0x02 }
    (fun b => { b with pc := 0x060D }) = true := by decide

/-- 95_test_vectors.md V43.5: BMI with displacement −128. -/
theorem test_V43_5 : oneStep 0x0600 [0x30, 0x80] { State.reset with p := 0x80 }
    (fun b => { b with pc := 0x0582 }) = true := by decide

/-- 95_test_vectors.md V43.6: BNE taken backward. -/
theorem test_V43_6 : oneStep 0x0608 [0xD0, 0xFA] State.reset
    (fun b => { b with pc := 0x0604 }) = true := by decide

/-- 95_test_vectors.md V43.7: BNE not taken. -/
theorem test_V43_7 : oneStep 0x0608 [0xD0, 0xFA] { State.reset with p := 0x02 }
    (fun b => { b with pc := 0x060A }) = true := by decide

/-- 95_test_vectors.md V43.8: BPL taken. -/
theorem test_V43_8 : oneStep 0x0617 [0x10, 0xF9] State.reset
    (fun b => { b with pc := 0x0612 }) = true := by decide

/-- 95_test_vectors.md V43.9: BVC target wraps past 0xFFFF. -/
theorem test_V43_9 : oneStep 0xFFF0 [0x50, 0x7F] State.reset
    (fun b => { b with pc := 0x0071 }) = true := by decide

/-- 95_test_vectors.md V43.10: BVS to itself (0xFE). -/
theorem test_V43_10 : oneStep 0x0600 [0x70, 0xFE] { State.reset with p := 0x40 }
    (fun b => { b with pc := 0x0600 }) = true := by decide

/-- 95_test_vectors.md V43.11: displacement 0, taken. -/
theorem test_V43_11 : oneStep 0x0600 [0xF0, 0x00] { State.reset with p := 0x02 }
    (fun b => { b with pc := 0x0602 }) = true := by decide

/-- 95_test_vectors.md V43.12: target wraps below 0x0000. -/
theorem test_V43_12 : oneStep 0x0010 [0x30, 0x80] { State.reset with p := 0x80 }
    (fun b => { b with pc := 0xFF92 }) = true := by decide

/-- 95_test_vectors.md V44.1: INC 0xFF, C unchanged. -/
theorem test_V44_1 : oneStep 0x0600 [0xE6, 0x10] (poke 0x0010 0xFF { State.reset with p := 0x01 })
    (fun b => { (poke 0x0010 0x00 b) with p := 0x03, pc := 0x0602 }) = true := by decide

/-- 95_test_vectors.md V44.2: INC AbsoluteX 0x7F. -/
theorem test_V44_2 : oneStep 0x0600 [0xFE, 0x00, 0x20] (poke 0x2001 0x7F { State.reset with x := 0x01 })
    (fun b => { (poke 0x2001 0x80 b) with p := 0x80, pc := 0x0603 }) = true := by decide

/-- 95_test_vectors.md V44.3: DEC 0x00. -/
theorem test_V44_3 : oneStep 0x0600 [0xC6, 0x10] State.reset
    (fun b => { (poke 0x0010 0xFF b) with p := 0x80, pc := 0x0602 }) = true := by decide

/-- 95_test_vectors.md V44.4: DEC ZeroPageX 0x01. -/
theorem test_V44_4 : oneStep 0x0600 [0xD6, 0x0F] (poke 0x0010 0x01 { State.reset with x := 0x01 })
    (fun b => { (poke 0x0010 0x00 b) with p := 0x02, pc := 0x0602 }) = true := by decide

/-- 95_test_vectors.md V44.5: INX 0xFF. -/
theorem test_V44_5 : oneStep 0x0600 [0xE8] { State.reset with x := 0xFF }
    (fun b => { b with x := 0x00, p := 0x02, pc := 0x0601 }) = true := by decide

/-- 95_test_vectors.md V44.6: INY 0x7F. -/
theorem test_V44_6 : oneStep 0x0600 [0xC8] { State.reset with y := 0x7F }
    (fun b => { b with y := 0x80, p := 0x80, pc := 0x0601 }) = true := by decide

/-- 95_test_vectors.md V44.7: DEX 0x01. -/
theorem test_V44_7 : oneStep 0x0600 [0xCA] { State.reset with x := 0x01 }
    (fun b => { b with x := 0x00, p := 0x02, pc := 0x0601 }) = true := by decide

/-- 95_test_vectors.md V44.8: DEY 0x00. -/
theorem test_V44_8 : oneStep 0x0600 [0x88] State.reset
    (fun b => { b with y := 0xFF, p := 0x80, pc := 0x0601 }) = true := by decide

/-- 95_test_vectors.md V45.1: JMP Absolute. -/
theorem test_V45_1 : oneStep 0x0600 [0x4C, 0x34, 0x12] State.reset
    (fun b => { b with pc := 0x1234 }) = true := by decide

/-- 95_test_vectors.md V45.2: JMP Indirect. -/
theorem test_V45_2 : oneStep 0x0600 [0x6C, 0x20, 0x01] (poke 0x0121 0x12 (poke 0x0120 0x34 State.reset))
    (fun b => { b with pc := 0x1234 }) = true := by decide

/-- 95_test_vectors.md V45.4: JSR. -/
theorem test_V45_4 : oneStep 0x0600 [0x20, 0x00, 0x10] State.reset
    (fun b => { (poke 0x01FE 0x02 (poke 0x01FF 0x06 b)) with sp := 0xFD, pc := 0x1000 }) = true := by decide

/-- 95_test_vectors.md V45.5: JSR with SP = 0x00. -/
theorem test_V45_5 : oneStep 0x0600 [0x20, 0x00, 0x10] { State.reset with sp := 0x00 }
    (fun b => { (poke 0x01FF 0x02 (poke 0x0100 0x06 b)) with sp := 0xFE, pc := 0x1000 }) = true := by decide

/-- 95_test_vectors.md V45.7: RTS. -/
theorem test_V45_7 : oneStep 0x0600 [0x60] (poke 0x01FF 0x06 (poke 0x01FE 0x02 { State.reset with sp := 0xFD }))
    (fun b => { b with sp := 0xFF, pc := 0x0603 }) = true := by decide

/-- 95_test_vectors.md V45.8: RTS with SP = 0xFE. -/
theorem test_V45_8 : oneStep 0x0600 [0x60] (poke 0x0100 0x12 (poke 0x01FF 0x34 { State.reset with sp := 0xFE }))
    (fun b => { b with sp := 0x00, pc := 0x1235 }) = true := by decide

/-- 95_test_vectors.md V46.1: ASL A. -/
theorem test_V46_1 : oneStep 0x0600 [0x0A] { State.reset with a := 0x81 }
    (fun b => { b with a := 0x02, p := 0x01, pc := 0x0601 }) = true := by decide

/-- 95_test_vectors.md V46.2: ASL 0x80 to zero. -/
theorem test_V46_2 : oneStep 0x0600 [0x0A] { State.reset with a := 0x80 }
    (fun b => { b with a := 0x00, p := 0x03, pc := 0x0601 }) = true := by decide

/-- 95_test_vectors.md V46.3: ASL ZeroPage to negative. -/
theorem test_V46_3 : oneStep 0x0600 [0x06, 0x20] (poke 0x0020 0x40 State.reset)
    (fun b => { (poke 0x0020 0x80 b) with p := 0x80, pc := 0x0602 }) = true := by decide

/-- 95_test_vectors.md V46.4: LSR ZeroPage. -/
theorem test_V46_4 : oneStep 0x0600 [0x46, 0x20] (poke 0x0020 0x02 State.reset)
    (fun b => { (poke 0x0020 0x01 b) with pc := 0x0602 }) = true := by decide

/-- 95_test_vectors.md V46.5: LSR 0x01 clears N. -/
theorem test_V46_5 : oneStep 0x0600 [0x4A] { State.reset with a := 0x01, p := 0x80 }
    (fun b => { b with a := 0x00, p := 0x03, pc := 0x0601 }) = true := by decide

/-- 95_test_vectors.md V46.6: LSR AbsoluteX 0xFF. -/
theorem test_V46_6 : oneStep 0x0600 [0x5E, 0x00, 0x20] (poke 0x2003 0xFF { State.reset with x := 0x03 })
    (fun b => { (poke 0x2003 0x7F b) with p := 0x01, pc := 0x0603 }) = true := by decide

/-- 95_test_vectors.md V46.7: ROL A with carry in. -/
theorem test_V46_7 : oneStep 0x0600 [0x2A] { State.reset with a := 0x40, p := 0x01 }
    (fun b => { b with a := 0x81, p := 0x80, pc := 0x0601 }) = true := by decide

/-- 95_test_vectors.md V46.8: ROL 0x80 without carry. -/
theorem test_V46_8 : oneStep 0x0600 [0x2A] { State.reset with a := 0x80 }
    (fun b => { b with a := 0x00, p := 0x03, pc := 0x0601 }) = true := by decide

/-- 95_test_vectors.md V46.9: ROL ZeroPageX 0x00 with carry. -/
theorem test_V46_9 : oneStep 0x0600 [0x36, 0x10] { State.reset with x := 0x01, p := 0x01 }
    (fun b => { (poke 0x0011 0x01 b) with p := 0x00, pc := 0x0602 }) = true := by decide

/-- 95_test_vectors.md V46.10: ROR A. -/
theorem test_V46_10 : oneStep 0x0600 [0x6A] { State.reset with a := 0x02 }
    (fun b => { b with a := 0x01, pc := 0x0601 }) = true := by decide

/-- 95_test_vectors.md V46.11: ROR 0x01 with carry. -/
theorem test_V46_11 : oneStep 0x0600 [0x6A] { State.reset with a := 0x01, p := 0x01 }
    (fun b => { b with a := 0x80, p := 0x81, pc := 0x0601 }) = true := by decide

/-- 95_test_vectors.md V46.12: ROR Absolute 0x01 without carry. -/
theorem test_V46_12 : oneStep 0x0600 [0x6E, 0x00, 0x30] (poke 0x3000 0x01 State.reset)
    (fun b => { (poke 0x3000 0x00 b) with p := 0x03, pc := 0x0603 }) = true := by decide

/-- 95_test_vectors.md V47.1: PHA. -/
theorem test_V47_1 : oneStep 0x0600 [0x48] { State.reset with a := 0x42 }
    (fun b => { (poke 0x01FF 0x42 b) with sp := 0xFE, pc := 0x0601 }) = true := by decide

/-- 95_test_vectors.md V47.2: PHA with SP = 0x00. -/
theorem test_V47_2 : oneStep 0x0600 [0x48] { State.reset with a := 0x42, sp := 0x00 }
    (fun b => { (poke 0x0100 0x42 b) with sp := 0xFF, pc := 0x0601 }) = true := by decide

/-- 95_test_vectors.md V47.3: PHP pushes P raw. -/
theorem test_V47_3 : oneStep 0x0600 [0x08] { State.reset with p := 0x81 }
    (fun b => { (poke 0x01FF 0x81 b) with sp := 0xFE, pc := 0x0601 }) = true := by decide

/-- 95_test_vectors.md V47.4: PHP of the reset P: B and U not forced. -/
theorem test_V47_4 : oneStep 0x0600 [0x08] State.reset
    (fun b => { (poke 0x01FF 0x00 b) with sp := 0xFE, pc := 0x0601 }) = true := by decide

/-- 95_test_vectors.md V47.5: PLA. -/
theorem test_V47_5 : oneStep 0x0600 [0x68] (poke 0x01FF 0x42 { State.reset with sp := 0xFE })
    (fun b => { b with a := 0x42, sp := 0xFF, pc := 0x0601 }) = true := by decide

/-- 95_test_vectors.md V47.6: PLA with SP = 0xFF. -/
theorem test_V47_6 : oneStep 0x0600 [0x68] (poke 0x0100 0x80 State.reset)
    (fun b => { b with a := 0x80, sp := 0x00, p := 0x80, pc := 0x0601 }) = true := by decide

/-- 95_test_vectors.md V47.8: PLP. -/
theorem test_V47_8 : oneStep 0x0600 [0x28] (poke 0x01FF 0xC3 { State.reset with sp := 0xFE })
    (fun b => { b with p := 0xC3, sp := 0xFF, pc := 0x0601 }) = true := by decide

/-- 95_test_vectors.md V47.9: PLP of 0xFF sets B and U. -/
theorem test_V47_9 : oneStep 0x0600 [0x28] (poke 0x01FF 0xFF { State.reset with sp := 0xFE })
    (fun b => { b with p := 0xFF, sp := 0xFF, pc := 0x0601 }) = true := by decide

/-- 95_test_vectors.md V48.1: CLC. -/
theorem test_V48_1 : oneStep 0x0600 [0x18] { State.reset with p := 0x81 }
    (fun b => { b with p := 0x80, pc := 0x0601 }) = true := by decide

/-- 95_test_vectors.md V48.2: CLD. -/
theorem test_V48_2 : oneStep 0x0600 [0xD8] { State.reset with p := 0x08 }
    (fun b => { b with p := 0x00, pc := 0x0601 }) = true := by decide

/-- 95_test_vectors.md V48.3: CLI. -/
theorem test_V48_3 : oneStep 0x0600 [0x58] { State.reset with p := 0x04 }
    (fun b => { b with p := 0x00, pc := 0x0601 }) = true := by decide

/-- 95_test_vectors.md V48.4: CLV. -/
theorem test_V48_4 : oneStep 0x0600 [0xB8] { State.reset with p := 0x40 }
    (fun b => { b with p := 0x00, pc := 0x0601 }) = true := by decide

/-- 95_test_vectors.md V48.5: SEC. -/
theorem test_V48_5 : oneStep 0x0600 [0x38] State.reset
    (fun b => { b with p := 0x01, pc := 0x0601 }) = true := by decide

/-- 95_test_vectors.md V48.6: SED. -/
theorem test_V48_6 : oneStep 0x0600 [0xF8] State.reset
    (fun b => { b with p := 0x08, pc := 0x0601 }) = true := by decide

/-- 95_test_vectors.md V48.7: SEI. -/
theorem test_V48_7 : oneStep 0x0600 [0x78] State.reset
    (fun b => { b with p := 0x04, pc := 0x0601 }) = true := by decide

/-- 95_test_vectors.md V48.8: SEC when every flag is set. -/
theorem test_V48_8 : oneStep 0x0600 [0x38] { State.reset with p := 0xFF }
    (fun b => { b with p := 0xFF, pc := 0x0601 }) = true := by decide

/-- 95_test_vectors.md V48.9: TAX. -/
theorem test_V48_9 : oneStep 0x0600 [0xAA] { State.reset with a := 0xC0 }
    (fun b => { b with x := 0xC0, p := 0x80, pc := 0x0601 }) = true := by decide

/-- 95_test_vectors.md V48.10: TAY of zero. -/
theorem test_V48_10 : oneStep 0x0600 [0xA8] { State.reset with y := 0x12 }
    (fun b => { b with y := 0x00, p := 0x02, pc := 0x0601 }) = true := by decide

/-- 95_test_vectors.md V48.11: TXA clears N. -/
theorem test_V48_11 : oneStep 0x0600 [0x8A] { State.reset with x := 0x7F, a := 0x80, p := 0x80 }
    (fun b => { b with a := 0x7F, p := 0x00, pc := 0x0601 }) = true := by decide

/-- 95_test_vectors.md V48.12: TYA. -/
theorem test_V48_12 : oneStep 0x0600 [0x98] { State.reset with y := 0x80 }
    (fun b => { b with a := 0x80, p := 0x80, pc := 0x0601 }) = true := by decide

/-- 95_test_vectors.md V48.13: TSX after reset. -/
theorem test_V48_13 : oneStep 0x0600 [0xBA] State.reset
    (fun b => { b with x := 0xFF, p := 0x80, pc := 0x0601 }) = true := by decide

/-- 95_test_vectors.md V48.14: TSX. -/
theorem test_V48_14 : oneStep 0x0600 [0xBA] { State.reset with sp := 0xFD }
    (fun b => { b with x := 0xFD, p := 0x80, pc := 0x0601 }) = true := by decide

/-- 95_test_vectors.md V48.15: TXS. -/
theorem test_V48_15 : oneStep 0x0600 [0x9A] { State.reset with x := 0x80 }
    (fun b => { b with sp := 0x80, pc := 0x0601 }) = true := by decide

/-- 95_test_vectors.md V48.16: TXS of zero sets no Z. -/
theorem test_V48_16 : oneStep 0x0600 [0x9A] State.reset
    (fun b => { b with sp := 0x00, pc := 0x0601 }) = true := by decide

/-- 95_test_vectors.md V49.4: NOP. -/
theorem test_V49_4 : oneStep 0x0600 [0xEA] State.reset
    (fun b => { b with pc := 0x0601 }) = true := by decide

/-- 95_test_vectors.md V49.5: RTI. -/
theorem test_V49_5 : oneStep 0x0600 [0x40] (poke 0x01FF 0x12 (poke 0x01FE 0x34 (poke 0x01FD 0xC3 { State.reset with sp := 0xFC })))
    (fun b => { b with p := 0xC3, sp := 0xFF, pc := 0x1234 }) = true := by decide

/-- 95_test_vectors.md V49.6: RTI with SP = 0xFE wraps. -/
theorem test_V49_6 : oneStep 0x0600 [0x40] (poke 0x0101 0x20 (poke 0x0100 0x00 (poke 0x01FF 0x01 { State.reset with sp := 0xFE })))
    (fun b => { b with p := 0x01, sp := 0x01, pc := 0x2000 }) = true := by decide

/-- 95_test_vectors.md V60.1: unmapped byte. -/
theorem test_V60_1 : oneStep 0x0600 [0x02] { State.reset with a := 0x12 }
    (fun b => { b with pc := 0x0600, run := .faulted ⟨.invalidOpcode, 0x02, 0x0600⟩ }) = true := by decide

/-- 95_test_vectors.md V60.2: unmapped 0xFF. -/
theorem test_V60_2 : oneStep 0x0600 [0xFF] State.reset
    (fun b => { b with pc := 0x0600, run := .faulted ⟨.invalidOpcode, 0xFF, 0x0600⟩ }) = true := by decide

-- Vectors of an open parameter: the operation at each of its values

/-- V30.8 and V30.9: the pointer at 0xFF. -/
def pointerState : State := poke 0x00FF 0x00 (poke 0x0100 0x40 (poke 0x0000 0x50 State.reset))

/-- 95_test_vectors.md V30.8: linear. -/
theorem test_V30_8 : zpPtr16 .linear 0xFF pointerState = 0x4000 := by decide

/-- 95_test_vectors.md V30.9: page. -/
theorem test_V30_9 : zpPtr16 .page 0xFF pointerState = 0x5000 := by decide

/-- 95_test_vectors.md V40.23: ADC with D = 1, Fault. -/
theorem test_V40_23 : adc .fault 0x69 .immediate 0x01 { State.reset with a := 0x09, p := 0x08, pc := 0x0600 } =
    .next { State.reset with a := 0x09, p := 0x08, pc := 0x0600, run := .faulted ⟨.notImplementedInstruction, 0x69, 0x0600⟩ } := by rfl

/-- 95_test_vectors.md V40.24: ADC with D = 1, Binary. -/
theorem test_V40_24 : adc .binary 0x69 .immediate 0x01 { State.reset with a := 0x09, p := 0x08, pc := 0x0600 } =
    .next { State.reset with a := 0x0A, p := 0x08, pc := 0x0602 } := by rfl

/-- 95_test_vectors.md V40.25: SBC ZeroPage with D = 1, Fault. -/
theorem test_V40_25 : sbc .fault 0xE5 .zeroPage 0x00 { State.reset with a := 0x09, p := 0x09, pc := 0x0600 } =
    .next { State.reset with a := 0x09, p := 0x09, pc := 0x0600, run := .faulted ⟨.notImplementedInstruction, 0xE5, 0x0600⟩ } := by rfl

/-- 95_test_vectors.md V49.1, V49.3: BRK, at 0x0600 and at 0xFFFF. -/
theorem test_V49_1_V49_3 : haltAt .unchanged { State.reset with pc := 0x0600, run := .running } =
      .next { State.reset with pc := 0x0601, run := .halted } ∧
    haltAt .unchanged { State.reset with pc := 0xFFFF, run := .running } =
      .next { State.reset with pc := 0x0000, run := .halted } := ⟨rfl, rfl⟩

/-- 95_test_vectors.md V49.2: BRK with BRK_HALT_B = Set. -/
theorem test_V49_2 : haltAt .set { State.reset with pc := 0x0600, run := .running } =
    .next { State.reset with p := 0x10, pc := 0x0601, run := .halted } := by rfl

/-- 95_test_vectors.md V70.1, V70.2, V70.3: the host's reset, and a start after a halt and after a fault. -/
theorem test_V70 : hostAct .reset { pointerState with a := 0x12, run := .halted } = .next State.reset ∧
    hostAct .start { State.reset with pc := 0x060E, run := .halted } = .next { State.reset with pc := 0x060E, run := .running } ∧
    hostStep (booted 0x0600 [0x02] State.reset) = step (booted 0x0600 [0x02] State.reset) := ⟨rfl, rfl, rfl⟩

-- A witness for the hypotheses of each statement that has some

/-- The step a computed test shows. -/
theorem oneStep_next {addr : Word} {bytes : List Byte} {s : State} {want : State → State} (h : oneStep addr bytes s want = true) :
    step (booted addr bytes s) = .next (want (booted addr bytes s)) := by
  unfold oneStep at h
  split at h
  · rename_i heq
    rw [heq, of_decide_eq_true h]
  · cases h
  · cases h

theorem witness_StepKeepsTheInvariant : Invariant (booted 0x0600 [0xEA] State.reset) ∧
    step (booted 0x0600 [0xEA] State.reset) = .next { booted 0x0600 [0xEA] State.reset with pc := 0x0601 } :=
  ⟨⟨rfl, trivial⟩, oneStep_next (want := fun b => { b with pc := 0x0601 }) (by decide)⟩

/-- The invariant is met by a halted and by a faulted state too. -/
theorem witness_Invariant_of_stopped : Invariant { State.reset with pc := 0x0001, run := .halted } ∧
    Invariant { booted 0x0600 [0x02] State.reset with run := .faulted ⟨.invalidOpcode, 0x02, 0x0600⟩ } :=
  ⟨⟨rfl, rfl⟩, rfl, rfl, rfl, Option.isNone_iff_eq_none.mp (by decide : (lookupRow opcodeTable 0x02).isNone = true)⟩

theorem witness_DecodeOfEncodeIsTheInstruction : Instr.wf (.ldaAbsolute 0xFFFF) = true ∧ Instr.wf (.bne 0x80) = true ∧
    Instr.wf .brk = true := by decide

theorem witness_DecodedBytesAreTheEncoding : decode [0xAD, 0xFF, 0x00, 0x60] = .ok (.ldaAbsolute 0x00FF, [0x60]) := by rfl

theorem witness_UnmappedBytesAreTheListedOnes : ∀ rest, decode (0xFF :: rest) = .error (.invalidOpcode 0xFF) := fun _ => rfl

theorem witness_StepRunsTheDecodedInstruction : (booted 0xFFFF [0xA9, 0x3C] State.reset).run = .running ∧
    decode (fetchBytes (booted 0xFFFF [0xA9, 0x3C] State.reset)) = .ok (.ldaImmediate 0x3C, [0x00]) := ⟨rfl, rfl⟩

/-- The bytes of an instruction at 0xFFFE, across the wrap. -/
theorem witness_EncodedBytesAtPcAreExecuted : (booted 0xFFFE [0xAD, 0x34, 0x12] State.reset).run = .running ∧
    Instr.wf (.ldaAbsolute 0x1234) = true ∧ StandsAtPc (.ldaAbsolute 0x1234) (booted 0xFFFE [0xAD, 0x34, 0x12] State.reset) :=
  ⟨rfl, rfl, fun k b h => match k, h with
    | 0, h => by cases h; rfl
    | 1, h => by cases h; rfl
    | 2, h => by cases h; rfl
    | k + 3, h => by cases h⟩

theorem witness_UnmappedByteFaultsPrecisely : (booted 0x0600 [0xFF] State.reset).run = .running ∧
    ∀ i : Instr, i.opcode ≠ (booted 0x0600 [0xFF] State.reset).read 0x0600 := ⟨rfl, fun i => by
  have hb : (booted 0x0600 [0xFF] State.reset).read 0x0600 = 0xFF := by decide
  rw [hb]
  cases i <;> simp [Instr.opcode]⟩

theorem witness_StoppedBlockKeepsItsState : State.reset.run ≠ .running ∧ { State.reset with run := .halted }.run ≠ .running ∧
    { State.reset with run := .faulted ⟨.invalidOpcode, 0x02, 0x0600⟩ }.run ≠ .running := ⟨nofun, nofun, nofun⟩

/-- A running step that goes on, one that raises InvalidOpcode, one that halts, and one of ADC with D = 1. -/
theorem witness_RunningStepEndsInOneOfFourWays :
    step (booted 0x0600 [0xEA] State.reset) = .next { booted 0x0600 [0xEA] State.reset with pc := 0x0601 } ∧
    step (booted 0x0600 [0x02] State.reset) =
      .next { booted 0x0600 [0x02] State.reset with run := .faulted ⟨.invalidOpcode, 0x02, 0x0600⟩ } ∧
    step (booted 0x0600 [0x00] State.reset) = haltAt Config.brkHaltB (booted 0x0600 [0x00] State.reset) ∧
    step (booted 0x0600 [0x69, 0x01] { State.reset with p := 0x08 }) =
      adc Config.decimalPolicy 0x69 .immediate 0x01 (booted 0x0600 [0x69, 0x01] { State.reset with p := 0x08 }) :=
  ⟨oneStep_next (want := fun b => { b with pc := 0x0601 }) (by decide),
    oneStep_next (want := fun b => { b with run := .faulted ⟨.invalidOpcode, 0x02, 0x0600⟩ }) (by decide), rfl, rfl⟩

/-- SP at both ends of its range. -/
theorem witness_PushAndPullMoveOneByte : State.reset.mem.wf = true ∧ { State.reset with sp := 0x00 }.sp = 0x00 ∧
    State.reset.sp = 0xFF := ⟨rfl, rfl, rfl⟩

/-- One instruction of each mode. -/
theorem witness_EffectiveAddressOfEachMode : Instr.mode (.ldaImmediate 0xFF) = .immediate ∧ Instr.mode (.staZeroPage 0xFF) = .zeroPage ∧
    Instr.mode (.incZeroPageX 0xFF) = .zeroPageX ∧ Instr.mode (.ldxZeroPageY 0xFF) = .zeroPageY ∧
    Instr.mode (.jmpAbsolute 0xFFFF) = .absolute ∧ Instr.mode (.rolAbsoluteX 0xFFFF) = .absoluteX ∧
    Instr.mode (.staAbsoluteY 0xFFFF) = .absoluteY ∧ Instr.mode (.jmpIndirect 0xFFFF) = .indirect ∧
    Instr.mode (.bvs 0x80) = .relative := by decide

theorem witness_ZeroPagePointerModes : Instr.mode (.cmpIndirectX 0xFF) = .indirectX ∧ Instr.mode (.staIndirectY 0xFF) = .indirectY := by
  decide

theorem witness_OperandByteIsReadAtTheEffectiveAddress :
    Instr.mode (.sbcIndirectY 0xFF) ∈ [Mode.zeroPage, .zeroPageX, .zeroPageY, .absolute, .absoluteX, .absoluteY, .indirectX, .indirectY] ∧
    Instr.mode .lsrAccumulator = .accumulator := by decide

theorem witness_AddAndSubtractWithCarry : Instr.op (.adcIndirectX 0xFF) = .adc ∧ Instr.op (.sbcAbsoluteY 0xFFFF) = .sbc ∧
    State.reset.flag .d = false := by decide

theorem witness_DecimalModeFaultsOrComputesInBinary : Instr.op (.adcZeroPage 0xFF) = .adc ∧ Instr.op (.sbcImmediate 0xFF) = .sbc ∧
    { State.reset with p := 0x08 }.flag .d = true := by decide

theorem witness_ComparesSetCarryZeroNegative :
    (∃ q ∈ compareRows, Instr.op (.cmpImmediate 0xFF) = q.1 ∧ q.2.1 = .a) ∧
    (∃ q ∈ compareRows, Instr.op (.cpxZeroPage 0xFF) = q.1 ∧ q.2.1 = .x) ∧
    (∃ q ∈ compareRows, Instr.op (.cpyAbsolute 0xFFFF) = q.1 ∧ q.2.1 = .y) := by decide

theorem witness_SubtractIsAddOfComplementAndRoundTrips : State.reset.flag .d = false ∧ State.reset.flag .c = false ∧
    { State.reset with p := 0x01 }.flag .d = false ∧ { State.reset with p := 0x01 }.flag .c = true := by decide

theorem witness_LogicalInstructionsCombineIntoA : Instr.op (.andIndirectX 0xFF) = .and ∧ Instr.op (.oraAbsoluteY 0xFFFF) = .ora ∧
    Instr.op (.eorImmediate 0x00) = .eor := by decide

theorem witness_BitTestsWithoutWriting : Instr.op (.bitZeroPage 0xFF) = .bit ∧ Instr.op (.bitAbsolute 0xFFFF) = .bit := by decide

theorem witness_LoadsWriteTheirRegister :
    (∃ q ∈ loadRows, Instr.op (.ldaIndirectY 0xFF) = q.1 ∧ q.2.1 = .a) ∧
    (∃ q ∈ loadRows, Instr.op (.ldxZeroPageY 0xFF) = q.1 ∧ q.2.1 = .x) ∧
    (∃ q ∈ loadRows, Instr.op (.ldyImmediate 0x00) = q.1 ∧ q.2.1 = .y) := by decide

theorem witness_StoresWriteOneByte : pointerState.mem.wf = true ∧
    (∃ q ∈ storeRows, Instr.op (.staIndirectX 0xFF) = q.1 ∧ q.2.1 = .a) ∧
    (∃ q ∈ storeRows, Instr.op (.stxZeroPageY 0xFF) = q.1 ∧ q.2.1 = .x) ∧
    (∃ q ∈ storeRows, Instr.op (.styAbsolute 0xFFFF) = q.1 ∧ q.2.1 = .y) := by decide

/-- Each branch is taken in one of two states and not in the other. -/
theorem witness_BranchesTestOneFlag : (Instr.bcc 0x80, 0x90, Flag.c, false) ∈ branchRows 0x80 ∧
    ∀ q ∈ branchRows 0x80, (State.reset.flag q.2.2.1 = q.2.2.2 ∧ { State.reset with p := 0xFF }.flag q.2.2.1 ≠ q.2.2.2) ∨
      (State.reset.flag q.2.2.1 ≠ q.2.2.2 ∧ { State.reset with p := 0xFF }.flag q.2.2.1 = q.2.2.2) := by decide

theorem witness_IncrementAndDecrementMemory : pointerState.mem.wf = true ∧ Instr.op (.incAbsoluteX 0xFFFF) = .inc ∧
    Instr.op (.decZeroPage 0xFF) = .dec := by decide

theorem witness_CallPushesItsLastByteAddress : pointerState.mem.wf = true := by decide

/-- The state JSR leaves is itself one the return may start from. -/
theorem witness_CallThenReturnComesBack : State.reset.mem.wf = true ∧ ∃ t, exec (.jsr 0x1000) State.reset = .next t ∧
    t.sp = 0xFD ∧ t.read (stackAddr (t.sp + 1)) = 0x02 ∧ t.read (stackAddr (t.sp + 2)) = 0x00 := ⟨rfl, _, rfl, rfl, rfl, rfl⟩

/-- A JSR in the stack page, whose pushes land on its own operand bytes (PC = 0x01FD, SP = 0xFF). -/
theorem witness_CallTargetIsReadBeforeThePushes : (booted 0x01FD [0x20, 0x34, 0x12] State.reset).run = .running ∧
    (booted 0x01FD [0x20, 0x34, 0x12] State.reset).read 0x01FD = 0x20 := ⟨rfl, rfl⟩

theorem witness_ShiftsAndRotates : pointerState.mem.wf = true ∧ Instr.op .aslAccumulator ∈ [Op.asl, .lsr, .rol, .ror] ∧
    Instr.op (.lsrZeroPageX 0xFF) ∈ [Op.asl, .lsr, .rol, .ror] ∧ Instr.op (.rolAbsolute 0xFFFF) ∈ [Op.asl, .lsr, .rol, .ror] ∧
    Instr.op (.rorAbsoluteX 0xFFFF) ∈ [Op.asl, .lsr, .rol, .ror] := by decide

theorem witness_NineRotatesLeftRestoreByteAndCarry : pointerState.mem.wf = true ∧ Instr.op .rolAccumulator = .rol ∧
    Instr.op (.rolZeroPage 0xFF) = .rol := by decide

theorem witness_PushesStoreTheRawByte : { State.reset with sp := 0x00 }.mem.wf = true ∧ Instr.op .pha = .pha ∧
    Instr.op .php = .php := by decide

theorem witness_PushThenPullStatusRestoresIt : { State.reset with sp := 0x00, p := 0xFF }.mem.wf = true := by decide

theorem witness_FlagInstructionsWriteOneFlag : (Instr.clv, 0xB8, Flag.v, false) ∈ flagRows ∧ (Instr.sed, 0xF8, Flag.d, true) ∈ flagRows := by
  decide

/-- One step that writes A, one that writes X, one that writes Y, one that writes SP. -/
theorem witness_OnlyTheListedInstructionsWriteARegister :
    exec (.ldaImmediate 0x01) State.reset = .next { State.reset with a := 0x01, pc := 0x0002 } ∧
    exec .inx State.reset = .next { State.reset with x := 0x01, pc := 0x0001 } ∧
    exec .iny State.reset = .next { State.reset with y := 0x01, pc := 0x0001 } ∧
    exec .txs State.reset = .next { State.reset with sp := 0x00, pc := 0x0001 } := ⟨rfl, rfl, rfl, rfl⟩

/-- One step that writes each flag but B and U by an instruction of its own, and all eight by PLP. -/
theorem witness_OnlyTheListedInstructionsWriteAFlag : exec .sec State.reset = .next { State.reset with p := 0x01, pc := 0x0001 } ∧
    exec (.ldaImmediate 0x00) State.reset = .next { State.reset with p := 0x02, pc := 0x0002 } ∧
    exec .sei State.reset = .next { State.reset with p := 0x04, pc := 0x0001 } ∧
    exec .sed State.reset = .next { State.reset with p := 0x08, pc := 0x0001 } ∧
    exec .clv { State.reset with p := 0x40 } = .next { State.reset with p := 0x00, pc := 0x0001 } ∧
    exec (.ldaImmediate 0x80) State.reset = .next { State.reset with a := 0x80, p := 0x80, pc := 0x0002 } ∧
    exec .plp (poke 0x0100 0xFF State.reset) = .next { poke 0x0100 0xFF State.reset with p := 0xFF, sp := 0x00, pc := 0x0001 } :=
  ⟨rfl, rfl, rfl, rfl, rfl, rfl, rfl⟩

theorem witness_OnlyTheStoredBytesChange : State.reset.mem.wf = true ∧
    exec (.staAbsolute 0xFFFF) { State.reset with a := 0x01 } =
      .next { poke 0xFFFF 0x01 State.reset with a := 0x01, pc := 0x0003 } ∧
    exec .nop State.reset = .next { State.reset with pc := 0x0001 } := ⟨rfl, rfl, rfl⟩

theorem witness_PcAdvancesByTheLength :
    Instr.op (.ldaAbsolute 0x1234) ∉ [Op.bcc, .bcs, .beq, .bmi, .bne, .bpl, .bvc, .bvs, .jmp, .jsr, .rts, .rti, .brk] ∧
    (Instr.op (.ldaAbsolute 0x1234) ∈ [Op.adc, .sbc] → State.reset.flag .d = false) ∧
    Instr.op (.adcImmediate 0x12) ∉ [Op.bcc, .bcs, .beq, .bmi, .bne, .bpl, .bvc, .bvs, .jmp, .jsr, .rts, .rti, .brk] ∧
    (Instr.op (.adcImmediate 0x12) ∈ [Op.adc, .sbc] → State.reset.flag .d = false) := by decide

/-- I, B and U: two states that differ in the flag, and a step of the first. -/
theorem witness_OnlyPushStatusReadsInterruptBreakAndUnused :
    Instr.op .nop ≠ .php ∧ SameButFlag .i State.reset { State.reset with p := 0x04 } ∧
    SameButFlag .b State.reset { State.reset with p := 0x10 } ∧ SameButFlag .u State.reset { State.reset with p := 0x20 } ∧
    exec .nop State.reset = .next { State.reset with pc := 0x0001 } := by
  refine ⟨by decide, ⟨rfl, rfl, rfl, rfl, rfl, rfl, rfl, ?_⟩, ⟨rfl, rfl, rfl, rfl, rfl, rfl, rfl, ?_⟩,
    ⟨rfl, rfl, rfl, rfl, rfl, rfl, rfl, ?_⟩, rfl⟩ <;> intro f <;> cases f <;> decide

theorem witness_BranchToItselfNeverEnds : (booted 0x0600 [0xD0, 0xFE] State.reset).run = .running ∧
    (booted 0x0600 [0xD0, 0xFE] State.reset).read 0x0600 = 0xD0 ∧ (booted 0x0600 [0xD0, 0xFE] State.reset).read 0x0601 = 0xFE ∧
    (booted 0x0600 [0xD0, 0xFE] State.reset).flag .z = false := by decide

theorem witness_EndOfRunIsFinalUntilTheHostActs :
    1 ≤ 7 ∧ (stateAfter 1 (booted 0x0600 [0x02] State.reset)).run ≠ .running := by decide

theorem witness_HostActsOnlyOnAStoppedBlock : { State.reset with run := .running }.run = .running ∧ State.reset.run ≠ .running ∧
    State.reset.mem.wf = true := ⟨rfl, nofun, rfl⟩

theorem witness_HostReadsOnlyAStoppedBlock : { State.reset with run := .running }.run = .running ∧
    { State.reset with run := .faulted ⟨.invalidOpcode, 0x02, 0x0600⟩ }.run ≠ .running := ⟨rfl, nofun⟩

theorem witness_BootLoadsTheProgramAndStarts : State.reset.mem.wf = true ∧ State.reset.run ≠ .running ∧
    ([0xA9, 0x3C, 0x00] : List Byte).length ≤ 65536 := by decide

theorem witness_BudgetedRunIsTheMachinesRun : { State.reset with run := .running }.run = .running := rfl

theorem witness_PlacedWordIsTheNextInstruction : State.reset.mem.wf = true ∧
    decodeTableWord 24 0x1234AD = some (.ldaAbsolute 0x1234) := by decide
end

section
/-! Reset: what the all-zero status byte and the memory without cells read as (10_state.md R25, R36; 20_memory.md R66). -/

namespace Sys2Proof.Machine

@[simp] theorem getFlag_zero (f : Flag) : getFlag 0x00 f = false := BitVec.getLsbD_zero

@[simp] theorem Memory.lookup_nil (addr : Nat) : Memory.lookup [] addr = 0x00 := rfl

theorem State.flag_reset (f : Flag) : State.reset.flag f = false := getFlag_zero f

theorem State.read_reset (addr : Word) : State.reset.read addr = 0x00 := Memory.lookup_nil addr.toNat

/-- Settles O1: the scalar components by their definition, every flag and every byte of memory by the lemmas above. -/
theorem resetStateHasTheSpecifiedValues : Obligations.ResetStateHasTheSpecifiedValues :=
  ⟨rfl, rfl, rfl, rfl, rfl, rfl, State.flag_reset, State.read_reset, rfl⟩

end Sys2Proof.Machine
end

section
/-! Memory and the stack: the two-byte read as a number, and what a push and a pull move and leave (20_memory.md R53, R57 to R59). -/

namespace Sys2Proof.Machine

/-- `join hi lo` as a number (00_scope.md R7). -/
theorem join_toNat (hi lo : Byte) : (join hi lo).toNat = hi.toNat * 256 + lo.toNat := by
  rw [join, BitVec.toNat_append, ← Nat.shiftLeft_add_eq_or_of_lt lo.isLt, Nat.shiftLeft_eq]

theorem State.read16_toNat (s : State) (addr : Word) :
    (s.read16 addr).toNat = (s.read (addr + 1)).toNat * 256 + (s.read addr).toNat := join_toNat _ _

/-- The byte a push stores is read back where it was stored (R57). -/
theorem push_read_stackAddr {s : State} (h : s.mem.wf = true) (v : Byte) : (push v s).read (stackAddr s.sp) = v := by
  rw [push_read, State.read_write h, if_pos rfl]

/-- A push stores one byte only (R57). -/
theorem push_keeps_memory {s : State} (h : s.mem.wf = true) (v : Byte) : MemoryKeptBut [stackAddr s.sp] s (push v s) := by
  intro b hb
  rw [push_read, State.read_write h, if_neg (List.ne_of_not_mem_cons hb)]

/-- A push writes no register but SP (R57). -/
theorem push_keeps_regs (v : Byte) (s : State) : RegsKeptBut [.sp] s (push v s) := by
  intro r hr
  cases r with
  | a | x | y => rfl
  | sp => exact absurd List.mem_cons_self hr

/-- Settles O14: the two worked wraps are the general clause, whose `addr + 1` is taken modulo 65536. -/
theorem wordReadIsLittleEndian : Obligations.WordReadIsLittleEndian :=
  ⟨State.read16_toNat, fun s => s.read16_toNat 0xFFFF, fun s => s.read16_toNat 0x10FF⟩

/-- Settles O15: the frame of a push by the lemmas above; the clauses at the two ends of SP put its value into the general ones. -/
theorem pushAndPullMoveOneByte : Obligations.PushAndPullMoveOneByte := by
  refine ⟨fun s v h => ?push, fun s => ⟨rfl, rfl⟩, fun s v h hsp => ?pushWraps, fun s hsp => ?pullWraps⟩
  case push =>
    exact ⟨push_sp v s, push_read_stackAddr h v, push_keeps_memory h v, push_keeps_regs v s, push_pc v s, push_p v s, push_run v s⟩
  case pushWraps =>
    have hread := push_read_stackAddr h v
    rw [hsp] at hread
    exact ⟨by rw [push_sp, hsp]; rfl, hread⟩
  case pullWraps =>
    exact ⟨by rw [pulled_sp, hsp]; rfl, by rw [pullByte, hsp]; rfl⟩

end Sys2Proof.Machine
end

section
/-! Effective addresses: the operand field of an instruction by the length of its mode and as the bytes at PC, the mnemonics a mode is
given to, and what each mode resolves to (30_encoding.md R71, R72, R74, R82 to R92). -/

namespace Sys2Proof

/-- The mnemonic of an instruction has its mode (R74). -/
theorem Instr.formExists_op_mode (i : Instr) : formExists i.op i.mode = true :=
  (Bool.and_eq_true_iff.mp (Laws.Encoding.all i).1).1

/-- An instruction of two bytes has a byte operand (R71, R72). -/
theorem Instr.operand_of_length_two {i : Instr} (h : i.mode.length = 2) : ∃ z, i.operand = .byte z := by
  have hlen := (Laws.Encoding.all i).2.1
  rw [h] at hlen
  cases ho : i.operand with
  | byte z => exact ⟨z, rfl⟩
  | none | word _ => simp [ho, Operand.bytes] at hlen

/-- An instruction of three bytes has a word operand (R71, R72). -/
theorem Instr.operand_of_length_three {i : Instr} (h : i.mode.length = 3) : ∃ a, i.operand = .word a := by
  have hlen := (Laws.Encoding.all i).2.1
  rw [h] at hlen
  cases ho : i.operand with
  | word a => exact ⟨a, rfl⟩
  | none | byte _ => simp [ho, Operand.bytes] at hlen

/-- No store and no read-modify-write has Immediate mode (R82). -/
theorem formExists_immediate {o : Op} (h : formExists o .immediate = true) :
    o ∉ [.sta, .stx, .sty, .inc, .dec, .asl, .lsr, .rol, .ror] := by
  have hnone : ∀ o ∈ [Op.sta, .stx, .sty, .inc, .dec, .asl, .lsr, .rol, .ror], formExists o .immediate = false := by decide
  exact fun ho => Bool.false_ne_true ((hnone o ho).symm.trans h)

theorem formExists_zeroPageY {o : Op} : formExists o .zeroPageY = true ↔ o = .ldx ∨ o = .stx := by
  cases o <;> decide

theorem formExists_indirect {o : Op} : formExists o .indirect = true ↔ o = .jmp := by
  cases o <;> decide

theorem formExists_relative {o : Op} :
    formExists o .relative = true ↔ o ∈ [Op.bcc, .bcs, .beq, .bmi, .bne, .bpl, .bvc, .bvs] := by
  cases o <;> decide

namespace Machine

/-- Where an instruction stands at PC, its operand bytes follow the opcode byte (R70). -/
theorem StandsAtPc.read_operand {i : Instr} {s : State} (h : StandsAtPc i s) {k : Nat} {b : Byte}
    (hb : i.operand.bytes[k]? = some b) : s.read (s.pc + BitVec.ofNat 16 (k + 1)) = b :=
  h (k + 1) b hb

theorem byteOperand_of_operand {i : Instr} {z : Byte} (h : i.operand = .byte z) (s : State) : ByteOperand i s z :=
  ⟨h, fun hs => hs.read_operand (k := 0) (by rw [h]; rfl)⟩

/-- The low byte of a word operand stands first (R72). -/
theorem wordOperand_of_operand {i : Instr} {a : Word} (h : i.operand = .word a) (s : State) : WordOperand i s a := by
  refine ⟨h, fun hs => ?_⟩
  have hlo : s.read (s.pc + 1) = loByte a := hs.read_operand (k := 0) (by rw [h]; rfl)
  have hhi : s.read (s.pc + 2) = hiByte a := hs.read_operand (k := 1) (by rw [h]; rfl)
  rw [State.read16, BitVec.add_assoc, show (1 + 1 : Word) = 2 from rfl, hlo, hhi, join_bytes]

/-- An instruction of a two-byte mode has that length, a byte operand, and the address its mode resolves that byte to. -/
theorem effectiveAddress_of_byte_mode {i : Instr} {m : Mode} (hm : i.mode = m) (hl : m.length = 2) (s : State) :
    i.mode.length = 2 ∧ ∃ z, ByteOperand i s z ∧ effectiveAddress i s = resolve Config.zpPointerWrap m (.byte z) s := by
  subst hm
  obtain ⟨z, hz⟩ := Instr.operand_of_length_two hl
  exact ⟨hl, z, byteOperand_of_operand hz s, by rw [effectiveAddress, hz]⟩

/-- An instruction of a three-byte mode has that length, a word operand, and the address its mode resolves that word to. -/
theorem effectiveAddress_of_word_mode {i : Instr} {m : Mode} (hm : i.mode = m) (hl : m.length = 3) (s : State) :
    i.mode.length = 3 ∧ ∃ a, WordOperand i s a ∧ effectiveAddress i s = resolve Config.zpPointerWrap m (.word a) s := by
  subst hm
  obtain ⟨a, ha⟩ := Instr.operand_of_length_three hl
  exact ⟨hl, a, wordOperand_of_operand ha s, by rw [effectiveAddress, ha]⟩

theorem operandByte_immediate {i : Instr} {s : State} {v : Byte} (hm : i.mode = .immediate) (h : ByteOperand i s v) :
    operandByte i s = some v := by
  rw [operandByte, hm, h.1]

/-- The zero-page pointer under `ZP_POINTER_WRAP = Linear` (R90). -/
theorem zpPtr16_linear (p : Byte) (s : State) : zpPtr16 .linear p s = s.read (zext16 p + 1) ++ s.read (zext16 p) := by
  rw [zpPtr16, hiAddr_linear, join]

/-- The zero-page pointer under `ZP_POINTER_WRAP = Page` (R90). -/
theorem zpPtr16_page (p : Byte) (s : State) : zpPtr16 .page p s = s.read (zext16 (p + 1)) ++ s.read (zext16 p) := by
  rw [zpPtr16, hiAddr_page, join]

/-- Settles O16: length, operand field and address by the length of the mode, the mnemonics of a mode by R74. -/
theorem effectiveAddressOfEachMode : Obligations.EffectiveAddressOfEachMode := by
  intro i s
  have hform := i.formExists_op_mode
  refine ⟨fun hm => ?immediate, fun hm => effectiveAddress_of_byte_mode hm rfl s, fun hm => effectiveAddress_of_byte_mode hm rfl s,
    fun hm => ?zeroPageY, fun hm => effectiveAddress_of_word_mode hm rfl s, fun hm => effectiveAddress_of_word_mode hm rfl s,
    fun hm => effectiveAddress_of_word_mode hm rfl s, fun hm => ?indirect, fun hm => ?relative⟩ <;> rw [hm] at hform
  case immediate =>
    obtain ⟨hlen, v, hv, hea⟩ := effectiveAddress_of_byte_mode hm rfl s
    exact ⟨hlen, formExists_immediate hform, v, hv, hea, operandByte_immediate hm hv⟩
  case zeroPageY =>
    obtain ⟨hlen, hea⟩ := effectiveAddress_of_byte_mode hm rfl s
    exact ⟨hlen, formExists_zeroPageY.mp hform, hea⟩
  case indirect =>
    obtain ⟨hlen, hea⟩ := effectiveAddress_of_word_mode hm rfl s
    exact ⟨hlen, formExists_indirect.mp hform, hea⟩
  case relative =>
    obtain ⟨hlen, hea⟩ := effectiveAddress_of_byte_mode hm rfl s
    exact ⟨hlen, formExists_relative.mp hform, hea⟩

/-- Settles O17: both modes resolve through `zpPtr16`, whose value is looked up for each value of the open parameter (D2). -/
theorem zeroPagePointerModes : Obligations.ZeroPagePointerModes := by
  refine fun i s => ⟨fun hm => ?indirectX, fun hm => ?indirectY⟩ <;>
    obtain ⟨hlen, z, hz, hea⟩ := effectiveAddress_of_byte_mode hm rfl s <;>
    refine ⟨hlen, z, hz, hea.trans ?_⟩ <;>
    generalize Config.zpPointerWrap = w
  case indirectX =>
    cases w with
    | linear => exact congrArg some (zpPtr16_linear (z + s.x) s)
    | page => exact congrArg some (zpPtr16_page (z + s.x) s)
  case indirectY =>
    cases w with
    | linear => exact congrArg (fun base => some (base + zext16 s.y)) (zpPtr16_linear z s)
    | page => exact congrArg (fun base => some (base + zext16 s.y)) (zpPtr16_page z s)

end Machine
end Sys2Proof
end

section
/-! The forms of a mnemonic: its rows of the opcode map (30_encoding.md R74). -/

namespace Sys2Proof

/-- The mnemonic of the instruction a row makes, read off at the operand field 0. -/
def OpcodeRow.op (r : OpcodeRow) : Op :=
  match r.form with
  | .implied i => i.op
  | .byte g => (g 0).op
  | .word g => (g 0).op

/-- The forms a mnemonic has in the opcode map (R74). -/
def formsOf (o : Op) : List (Mode × Byte) := (opcodeTable.filter (·.op = o)).map fun r => (r.mode, r.opcode)

/-- A row makes instructions of one mnemonic, whatever the operand field. -/
def OpcodeRow.KeepsOp (r : OpcodeRow) : Prop :=
  match r.form with
  | .implied i => i.op = r.op
  | .byte g => ∀ v, (g v).op = r.op
  | .word g => ∀ v, (g v).op = r.op

theorem opcodeTable_keepsOp : ∀ r ∈ opcodeTable, r.KeepsOp := by
  simp only [← List.forall_iff_forall_mem, opcodeTable, List.forall_append]
  repeat' apply And.intro
  all_goals first
    | exact fun _ => rfl
    | exact rfl

/-- An instruction a row makes has the row's mnemonic. -/
theorem op_of_take {r : OpcodeRow} (h : r ∈ opcodeTable) {bytes rest : List Byte} {i : Instr}
    (ht : r.form.take bytes = .ok (i, rest)) : i.op = r.op := by
  have hk := opcodeTable_keepsOp r h
  unfold OpcodeRow.KeepsOp at hk
  obtain ⟨hr, -⟩ | ⟨g, v, hr, -, rfl⟩ | ⟨g, lo, hi, hr, -, rfl⟩ := RowForm.take_ok ht <;> rw [hr] at hk
  · exact hk
  · exact hk v
  · exact hk (join hi lo)

/-- An instruction has one of its mnemonic's forms. -/
theorem Instr.hasForm_formsOf (i : Instr) : Machine.HasForm i (formsOf i.op) := by
  obtain ⟨-, -, r, hr, hmode, htake⟩ := Laws.Encoding.all i
  obtain ⟨hmem, hopcode⟩ := lookupRow_some hr
  have hop : r.op = i.op := (op_of_take hmem (htake [])).symm
  exact List.mem_map.mpr ⟨r, List.mem_filter.mpr ⟨hmem, decide_eq_true hop⟩, by rw [hmode, hopcode]⟩

end Sys2Proof
end

section
/-! What an instruction leaves unchanged, read off its `Gives`. -/

namespace Sys2Proof.Machine

variable {s t : State} {regs : Reg → Byte} {p : Byte} {pc : Word} {mem : Memory}

theorem Gives.completes {i : Instr} (g : Gives s t regs p (pastPc s i.mode) mem) (h : exec i s = .next t) : Completes i s t :=
  ⟨h, g.pc, g.run⟩

theorem Gives.keeps_regs (g : Gives s t s.reg p pc mem) : RegsKeptBut [] s t := fun r _ => g.reg r

theorem Gives.keeps_memory (g : Gives s t regs p pc s.mem) : MemoryKeptBut [] s t := fun a _ => g.read a

end Sys2Proof.Machine
end

section
/-! CMP, CPX and CPY (40_arithmetic.md R113 to R116). -/

namespace Sys2Proof.Machine

/-- The forms listed for each compare are those of the opcode map. -/
theorem compareRows_forms : ∀ q ∈ compareRows, q.2.2 = formsOf q.1 := by decide

/-- A compare applies `Compare` (R113) to its register and its operand byte. -/
theorem exec_compare {i : Instr} {r : Reg} {forms : List (Mode × Byte)} (h : (i.op, r, forms) ∈ compareRows) (s : State) :
    ∃ m, operandByte i s = some m ∧ exec i s = compareReg r i.mode m s := by
  have he := exec_by_op i s
  simp only [List.mem_cons, List.not_mem_nil, or_false, Prod.mk.injEq] at h
  obtain ⟨hop, rfl, -⟩ | ⟨hop, rfl, -⟩ | ⟨hop, rfl, -⟩ := h <;>
    simpa only [ExecByOp, hop] using he

/-- `Compare` writes C, Z and N only (R113). -/
theorem getFlag_compareFlags_of_notMem (p reg m : Byte) {f : Flag} (hf : f ∉ [Flag.c, .z, .n]) :
    getFlag (compareFlags p reg m) f = getFlag p f := by
  cases f with
  | c | z | n => simp at hf
  | v | d | i | b | u => simp

/-- Settles O22: the forms by the opcode map, the effect by `compareReg_gives`, which asks nothing of C or D. -/
theorem comparesSetCarryZeroNegative : Obligations.ComparesSetCarryZeroNegative := by
  intro i s r forms hrow
  have hforms : forms = formsOf i.op := compareRows_forms _ hrow
  obtain ⟨m, hm, he⟩ := exec_compare hrow s
  obtain ⟨t, ht⟩ := exec_answers i s
  have g := compareReg_gives (he ▸ ht)
  refine ⟨hforms ▸ i.hasForm_formsOf, m, t, hm, g.completes ht, ?carry, ?zero, ?negative, g.keeps_regs, fun f hf => ?flags,
    g.keeps_memory⟩
  case carry => simp [g.flag]
  case zero => simp [g.flag, beq_eq_decide]
  case negative => simp [g.flag, bit7]
  case flags => exact (g.flag f).trans (getFlag_compareFlags_of_notMem _ _ _ hf)

end Sys2Proof.Machine
end

section
/-! Instructions that write one register and take Z and N from it by `SetZN` (00_scope.md R11), read off their `Gives`. -/

namespace Sys2Proof.Machine

/-- `SetZN` writes Z and N only (R11). -/
theorem getFlag_setZN_of_notMem (p v : Byte) {f : Flag} (hf : f ∉ [Flag.z, .n]) : getFlag (setZN p v) f = getFlag p f := by
  cases f with
  | z | n => simp at hf
  | c | v | d | i | b | u => simp

/-- An instruction that gives one register a value, with Z and N from it, and moves past itself, writes just that register. -/
theorem Gives.writesRegister {i : Instr} {s t : State} {r : Reg} {v : Byte}
    (g : Gives s t (oneReg s r v) (setZN s.p v) (pastPc s i.mode) s.mem) (h : exec i s = .next t) : WritesRegister i s r v := by
  refine ⟨t, g.completes h, ?value, ⟨?zero, ?negative⟩, fun q hq => ?regs, fun f hf => ?flags, g.keeps_memory⟩
  case value => exact (g.reg r).trans (if_pos rfl)
  case zero => simp [g.flag, beq_eq_decide]
  case negative => simp [g.flag, bit7]
  case regs => exact (g.reg q).trans (if_neg (List.ne_of_not_mem_cons hq))
  case flags => exact (g.flag f).trans (getFlag_setZN_of_notMem _ _ hf)

end Sys2Proof.Machine
end

section
/-! AND, ORA, EOR and BIT (41_logical.md R120 to R123). -/

namespace Sys2Proof.Machine

/-- An instruction that applies a bitwise operation to A and its operand byte writes the result to A. -/
theorem writesRegister_of_logic {i : Instr} {s : State} {f : Byte → Byte → Byte}
    (h : ∃ m, operandByte i s = some m ∧ exec i s = logic f i.mode m s) :
    ∃ m, operandByte i s = some m ∧ WritesRegister i s .a (f s.a m) := by
  obtain ⟨m, hm, he⟩ := h
  obtain ⟨t, ht⟩ := exec_answers i s
  exact ⟨m, hm, (logic_gives (he ▸ ht)).writesRegister ht⟩

/-- Settles O24: the listed forms are the mnemonic's rows of the opcode map, the effect is `logic` at its operation. -/
theorem logicalInstructionsCombineIntoA : Obligations.LogicalInstructionsCombineIntoA := by
  intro i s
  have hforms := i.hasForm_formsOf
  have he := exec_by_op i s
  refine ⟨fun hop => ?and, fun hop => ?ora, fun hop => ?eor⟩
  all_goals
    rw [hop] at hforms
    simp only [ExecByOp, hop] at he
    exact ⟨hforms, writesRegister_of_logic he⟩

/-- BIT writes Z, N and V only (R123). -/
theorem getFlag_bitFlags_of_notMem (p a m : Byte) {f : Flag} (hf : f ∉ [Flag.z, .n, .v]) :
    getFlag (bitFlags p a m) f = getFlag p f := by
  cases f with
  | z | n | v => simp at hf
  | c | d | i | b | u => simp

/-- Settles O25: the listed forms are BIT's rows of the opcode map; `bitTest_gives` leaves every register and the memory. -/
theorem bitTestsWithoutWriting : Obligations.BitTestsWithoutWriting := by
  intro i s hop
  have hforms := i.hasForm_formsOf
  rw [hop] at hforms
  have he := exec_by_op i s
  simp only [ExecByOp, hop] at he
  obtain ⟨m, hm, he⟩ := he
  obtain ⟨t, ht⟩ := exec_answers i s
  have g := bitTest_gives (he ▸ ht)
  refine ⟨hforms, m, t, hm, g.completes ht, ?zero, ?negative, ?overflow, g.keeps_regs, fun f hf => ?flags, g.keeps_memory⟩
  case zero => simp [g.flag, beq_eq_decide]
  case negative => simp [g.flag, bit7]
  case overflow => simp [g.flag]
  case flags => exact (g.flag f).trans (getFlag_bitFlags_of_notMem _ _ _ hf)

end Sys2Proof.Machine
end

section
/-! What `SetZN` and a one-byte write leave, read off a `Gives` (00_scope.md R11; 20_memory.md R51, R52). -/

namespace Sys2Proof.Machine

variable {s t : State} {regs : Reg → Byte} {p v : Byte} {pc ea : Word} {mem : Memory}

theorem Gives.showsZN (g : Gives s t regs (setZN p v) pc mem) : ShowsZN v t :=
  ⟨by simp [g.flag, beq_eq_decide], by simp [g.flag, bit7]⟩

theorem Gives.keeps_flags_but_zn (g : Gives s t regs (setZN s.p v) pc mem) : FlagsKeptBut [.z, .n] s t := fun f hf =>
  (g.flag f).trans (getFlag_setZN_of_notMem _ _ hf)

/-- After a one-byte write a read is a read after that write (R51, R52). -/
theorem Gives.read_write (g : Gives s t regs p pc (s.write ea v).mem) (h : s.mem.wf = true) (a : Word) :
    t.read a = if a = ea then v else s.read a :=
  (g.read a).trans (State.read_write h ea a v)

theorem Gives.read_written (g : Gives s t regs p pc (s.write ea v).mem) (h : s.mem.wf = true) : t.read ea = v :=
  (g.read_write h ea).trans (if_pos rfl)

theorem Gives.keeps_memory_but (g : Gives s t regs p pc (s.write ea v).mem) (h : s.mem.wf = true) : MemoryKeptBut [ea] s t :=
  fun a ha => (g.read_write h a).trans (if_neg (List.ne_of_not_mem_cons ha))

end Sys2Proof.Machine
end

section
/-! INC and DEC of memory, and INX, INY, DEX and DEY (44_inc_dec.md R150 to R155). -/

namespace Sys2Proof.Machine

/-- An instruction that applies `f` to the byte at its effective address writes the result there and takes Z and N from it (R150, R151). -/
theorem completes_of_modify {i : Instr} {s : State} {f : Byte → Byte} (hwf : s.mem.wf = true)
    (h : ∃ ea, effectiveAddress i s = some ea ∧ exec i s = modify f i.mode ea s) :
    ∃ ea t, effectiveAddress i s = some ea ∧ Completes i s t ∧ t.read ea = f (s.read ea) ∧ ShowsZN (t.read ea) t ∧
      MemoryKeptBut [ea] s t ∧ RegsKeptBut [] s t ∧ FlagsKeptBut [.z, .n] s t := by
  obtain ⟨ea, hea, he⟩ := h
  obtain ⟨t, ht⟩ := exec_answers i s
  have g := modify_gives (he ▸ ht)
  have hread := g.read_written hwf
  exact ⟨ea, t, hea, g.completes ht, hread, hread.symm ▸ g.showsZN, g.keeps_memory_but hwf, g.keeps_regs, g.keeps_flags_but_zn⟩

/-- Settles O29: the listed forms are the mnemonic's rows of the opcode map, the effect is `modify` at adding or subtracting one. -/
theorem incrementAndDecrementMemory : Obligations.IncrementAndDecrementMemory := by
  intro i s hwf hop
  have hforms := i.hasForm_formsOf
  have he := exec_by_op i s
  obtain hop | hop := hop
  all_goals
    rw [hop] at hforms ⊢
    simp only [ExecByOp, hop] at he
    exact ⟨hforms, completes_of_modify hwf he⟩

/-- An implicit instruction that applies `f` to a register writes the result to it (R152 to R155). -/
theorem writesRegister_of_stepReg {i : Instr} {s : State} {r : Reg} {f : Byte → Byte} (hmode : i.mode = .implicit)
    (he : exec i s = stepReg r f s) : WritesRegister i s r (f (s.reg r)) := by
  obtain ⟨t, ht⟩ := exec_answers i s
  have g := stepReg_gives (he ▸ ht)
  rw [← hmode] at g
  exact g.writesRegister ht

/-- Settles O30: each of the four is `stepReg` of its register, at adding or subtracting one. -/
theorem incrementAndDecrementRegisters : Obligations.IncrementAndDecrementRegisters := by
  refine fun s => ⟨?inx, ?iny, ?dex, ?dey⟩
  case inx => exact ⟨Instr.hasForm_formsOf .inx, writesRegister_of_stepReg rfl (exec_by_op .inx s).2⟩
  case iny => exact ⟨Instr.hasForm_formsOf .iny, writesRegister_of_stepReg rfl (exec_by_op .iny s).2⟩
  case dex => exact ⟨Instr.hasForm_formsOf .dex, writesRegister_of_stepReg rfl (exec_by_op .dex s).2⟩
  case dey => exact ⟨Instr.hasForm_formsOf .dey, writesRegister_of_stepReg rfl (exec_by_op .dey s).2⟩

end Sys2Proof.Machine
end

section
/-! JMP (45_jumps_calls.md R160). -/

namespace Sys2Proof.Machine

/-- A JMP answers the same state with PC at its effective address, whatever its mode (R160). -/
theorem exec_of_jmp {i : Instr} {s : State} {ea : Word} (hop : i.op = .jmp) (hea : effectiveAddress i s = some ea) :
    exec i s = .next { s with pc := ea } := by
  have he := exec_by_op i s
  simp only [ExecByOp, hop] at he
  obtain ⟨target, htarget, he⟩ := he
  obtain rfl : ea = target := Option.some.inj (hea.symm.trans htarget)
  exact he.trans (jumpCall_next.mpr rfl)

/-- The pointer of JMP Indirect is read with a 16-bit increment, so the high byte may come from the next page (R89, R53). -/
theorem effectiveAddress_jmpIndirect (a : Word) (s : State) :
    effectiveAddress (.jmpIndirect a) s = some (s.read (a + 1) ++ s.read a) := rfl

/-- Settles O31: each form of JMP sets PC to its effective address, the operand itself or the word read at it. -/
theorem jumpSetsOnlyPc : Obligations.JumpSetsOnlyPc := by
  refine fun s a => ⟨⟨List.mem_singleton_self _, ?absolute⟩, ⟨List.mem_singleton_self _, ?indirect⟩⟩
  case absolute => exact exec_of_jmp rfl rfl
  case indirect => exact exec_of_jmp rfl (effectiveAddress_jmpIndirect a s)

end Sys2Proof.Machine
end

section
/-! ASL, LSR, ROL and ROR of A and of memory (46_shifts.md R170 to R173). -/

namespace Sys2Proof.Machine

/-- The modes of the shifts and rotates (R74). -/
abbrev shiftModes : List Mode := [.accumulator, .zeroPage, .zeroPageX, .absolute, .absoluteX]

theorem mode_mem_shiftModes {i : Instr} (hop : i.op ∈ [.asl, .lsr, .rol, .ror]) : i.mode ∈ shiftModes := by
  have hmodes : ∀ o ∈ [Op.asl, .lsr, .rol, .ror], o.modes = shiftModes := by decide
  exact hmodes _ hop ▸ List.contains_iff_mem.mp i.formExists_op_mode

/-- The operation of a shift or rotate, by its mnemonic; the rotates bring the carry in. -/
theorem shiftForm_by_op {i : Instr} (hop : i.op ∈ [.asl, .lsr, .rol, .ror]) (s : State) :
    ∃ f, ShiftForm f i s ∧ (i.op = .asl → f = aslOf) ∧ (i.op = .lsr → f = lsrOf) ∧
      (i.op = .rol → f = rolOf (s.flag .c)) ∧ (i.op = .ror → f = rorOf (s.flag .c)) := by
  have he := exec_by_op i s
  simp only [List.mem_cons, List.not_mem_nil, or_false] at hop
  obtain hop | hop | hop | hop := hop <;>
    simp only [ExecByOp, hop] at he <;>
    exact ⟨_, he, by simp [hop]⟩

/-- Every one of these modes but Accumulator reads memory. -/
theorem reads_memory_of_mem_shiftModes {m : Mode} (hmode : m ∈ shiftModes) (hm : m ≠ .accumulator) :
    m ∉ [Mode.immediate, .relative, .accumulator] := by
  revert m
  decide

/-- These modes read no memory and no register but X for their address (R83, R84, R86, R87). -/
theorem effectiveAddress_congr_x {i : Instr} (hmode : i.mode ∈ shiftModes) {s t : State} (hx : t.x = s.x) :
    effectiveAddress i t = effectiveAddress i s := by
  rw [effectiveAddress, effectiveAddress]
  generalize i.operand = o
  simp only [List.mem_cons, List.not_mem_nil, or_false] at hmode
  obtain hm | hm | hm | hm | hm := hmode <;> rw [hm] <;> cases o <;> simp [resolve, eaZeroPageX, eaAbsoluteX, hx]

theorem operandByte_accumulator {i : Instr} (hm : i.mode = .accumulator) (s : State) : operandByte i s = some s.a := by
  rw [operandByte, hm]

/-- A mode that reads memory has its operand byte at the effective address (00_scope.md R12). -/
theorem operandByte_of_effectiveAddress {i : Instr} (hm : i.mode ∉ [.immediate, .relative, .accumulator]) {s : State} {ea : Word}
    (hea : effectiveAddress i s = some ea) : operandByte i s = some (s.read ea) := by
  simp only [List.mem_cons, List.not_mem_nil, or_false, not_or] at hm
  obtain ⟨himm, hrel, hacc⟩ := hm
  rw [operandByte, hea]
  split
  case h_1 h _ => exact absurd h himm
  case h_2 h _ => exact absurd h hrel
  case h_3 h => exact absurd h hacc
  case h_4 => rfl

/-- The status byte of a shift: carry from the bit shifted out, Z and N from the result. -/
theorem Gives.flags_of_shift {s t : State} {regs : Reg → Byte} {r : Byte × Bool} {pc : Word} {mem : Memory}
    (g : Gives s t regs (shiftFlags s.p r) pc mem) : t.flag .c = r.2 ∧ ShowsZN r.1 t ∧ FlagsKeptBut [.c, .z, .n] s t := by
  refine ⟨by simp [g.flag], g.showsZN, fun f hf => (g.flag f).trans ?_⟩
  simp only [List.mem_cons, List.not_mem_nil, or_false, not_or] at hf
  obtain ⟨hc, hz, hn⟩ := hf
  rw [getFlag_shiftFlags, if_neg hn, if_neg hz, if_neg hc, State.flag]

/-- A shift `f` writes its result over its operand byte, in A or at the effective address, and nothing else but C, Z and N. -/
theorem completes_of_shiftForm {f : Byte → Byte × Bool} {i : Instr} {s : State} (hwf : s.mem.wf = true) (hmode : i.mode ∈ shiftModes)
    (h : ShiftForm f i s) :
    ∃ v t, operandByte i s = some v ∧ Completes i s t ∧ operandByte i t = some (f v).1 ∧
      (t.flag .c = (f v).2 ∧ ShowsZN (f v).1 t ∧ FlagsKeptBut [.c, .z, .n] s t) ∧
      RegsKeptBut (if i.mode = .accumulator then [.a] else []) s t ∧ MemoryKeptBut (effectiveAddress i s).toList s t := by
  obtain ⟨t, ht⟩ := exec_answers i s
  obtain ⟨hm, hea, he⟩ | ⟨hm, ea, hea, he⟩ := h
  case inl =>
    have g := shiftA_gives (he ▸ ht)
    rw [← hm] at g
    refine ⟨s.a, t, operandByte_accumulator hm s, g.completes ht, ?result, g.flags_of_shift, ?regs, hea ▸ g.keeps_memory⟩
    case result => exact (operandByte_accumulator hm t).trans (congrArg some (g.a.trans (if_pos rfl)))
    case regs =>
      rw [if_pos hm]
      exact fun q hq => (g.reg q).trans (if_neg (List.ne_of_not_mem_cons hq))
  case inr =>
    have g := shiftMem_gives (he ▸ ht)
    have hmem := reads_memory_of_mem_shiftModes hmode hm
    have hea' : effectiveAddress i t = some ea := (effectiveAddress_congr_x hmode g.x).trans hea
    refine ⟨s.read ea, t, operandByte_of_effectiveAddress hmem hea, g.completes ht, ?result, g.flags_of_shift, ?regs,
      hea ▸ g.keeps_memory_but hwf⟩
    case result => rw [operandByte_of_effectiveAddress hmem hea', g.read_written hwf]
    case regs => exact if_neg hm ▸ g.keeps_regs

/-- The bit ROR brings in at the top (R173). -/
theorem bitOf_shiftLeft_seven (c : Bool) : bitOf c <<< 7 = if c then 0x80 else 0x00 := by
  cases c <;> rfl

/-- Settles O36: the listed forms are the mnemonic's rows of the opcode map, the effect is its operation on the operand byte. -/
theorem shiftsAndRotates : Obligations.ShiftsAndRotates := by
  intro i s hwf hop
  have hforms := i.hasForm_formsOf
  obtain ⟨f, hshift, hasl, hlsr, hrol, hror⟩ := shiftForm_by_op hop s
  obtain ⟨v, t, hv, ht, hr, ⟨hc, hzn, hflags⟩, hregs, hmem⟩ := completes_of_shiftForm hwf (mode_mem_shiftModes hop) hshift
  refine ⟨v, (f v).1, t, hv, ht, hr, fun h => ?asl, fun h => ?lsr, fun h => ?rol, fun h => ?ror, hzn, hregs, hflags, hmem⟩ <;>
    rw [h] at hforms
  case asl =>
    obtain rfl := hasl h
    exact ⟨hforms, rfl, hc⟩
  case lsr =>
    obtain rfl := hlsr h
    exact ⟨hforms, rfl, hc⟩
  case rol =>
    obtain rfl := hrol h
    exact ⟨hforms, rfl, hc⟩
  case ror =>
    obtain rfl := hror h
    exact ⟨hforms, congrArg (v >>> 1 ||| ·) (bitOf_shiftLeft_seven (s.flag .c)), hc⟩

end Sys2Proof.Machine
end

section
/-! PHA, PHP, PLA and PLP (47_stack.md R180 to R183). -/

namespace Sys2Proof.Machine

/-- One register written is every other register kept. -/
theorem Gives.keeps_regs_but {s t : State} {r : Reg} {v p : Byte} {pc : Word} {mem : Memory}
    (g : Gives s t (oneReg s r v) p pc mem) : RegsKeptBut [r] s t := fun q hq =>
  (g.reg q).trans (if_neg (List.ne_of_not_mem_cons hq))

/-- An instruction that writes `v` at the stack address, decrements SP and moves past itself pushes `v` and changes nothing else. -/
theorem Gives.pushes {i : Instr} {s t : State} {v : Byte}
    (g : Gives s t (oneReg s .sp (s.sp - 1)) s.p (pastPc s i.mode) (s.write (stackAddr s.sp) v).mem) (hwf : s.mem.wf = true)
    (h : exec i s = .next t) :
    Completes i s t ∧ t.sp = s.sp - 1 ∧ t.read (stackAddr s.sp) = v ∧ MemoryKeptBut [stackAddr s.sp] s t ∧
      RegsKeptBut [.sp] s t ∧ t.p = s.p :=
  ⟨g.completes h, g.sp, g.read_written hwf, g.keeps_memory_but hwf, g.keeps_regs_but, g.p⟩

/-- Settles O38: PHA pushes A and PHP pushes P, both by `Gives.pushes`. -/
theorem pushesStoreTheRawByte : Obligations.PushesStoreTheRawByte := by
  intro i s hwf hi
  obtain ⟨t, ht⟩ := exec_answers i s
  have heffect := exec_effect ht
  obtain rfl | rfl := hi
  case inl => exact ⟨Instr.hasForm_formsOf .pha, t, Gives.pushes (i := .pha) heffect.2 hwf ht⟩
  case inr => exact ⟨Instr.hasForm_formsOf .php, t, Gives.pushes (i := .php) heffect.2 hwf ht⟩

/-- Settles O39: PLA writes A and SP and takes Z and N from the byte, PLP writes P and SP; both pull the byte above SP. -/
theorem pullsLoadAOrTheStatus : Obligations.PullsLoadAOrTheStatus := by
  refine fun s => ⟨⟨Instr.hasForm_formsOf .pla, ?pla⟩, ⟨Instr.hasForm_formsOf .plp, ?plp⟩⟩
  case pla =>
    obtain ⟨t, ht⟩ := exec_answers .pla s
    obtain ⟨-, g⟩ := exec_effect ht
    refine ⟨t, Gives.completes (i := .pla) g ht, g.a, g.sp, g.showsZN, fun q hq => ?regs, g.keeps_flags_but_zn, g.keeps_memory⟩
    case regs =>
      simp only [List.mem_cons, List.not_mem_nil, or_false, not_or] at hq
      obtain ⟨ha, hsp⟩ := hq
      rw [g.reg, if_neg ha, if_neg hsp]
  case plp =>
    obtain ⟨t, ht⟩ := exec_answers .plp s
    obtain ⟨-, g⟩ := exec_effect ht
    exact ⟨t, Gives.completes (i := .plp) g ht, g.p, g.sp, g.keeps_regs_but, g.keeps_memory⟩

end Sys2Proof.Machine
end

section
/-! CLC, CLD, CLI, CLV, SEC, SED and SEI (48_flags_transfers.md R190 to R196). -/

namespace Sys2Proof.Machine

/-- The opcode byte listed for each flag instruction is its only form in the opcode map. -/
theorem flagRows_forms : ∀ q ∈ flagRows, formsOf q.1.op = [(.implicit, q.2.1)] := by decide

/-- A flag instruction writes the listed value to its flag (R34). -/
theorem exec_flagRows (s : State) : ∀ q ∈ flagRows, exec q.1 s = writeFlag q.2.2.1 q.2.2.2 s := by
  simp only [List.forall_mem_cons]
  exact ⟨(exec_by_op .clc s).2, (exec_by_op .cld s).2, (exec_by_op .cli s).2, (exec_by_op .clv s).2, (exec_by_op .sec s).2,
    (exec_by_op .sed s).2, (exec_by_op .sei s).2, List.forall_mem_nil _⟩

/-- Settles O41: the opcode byte by the opcode map, the effect by `writeFlag_gives`, whose status byte differs in the one flag. -/
theorem flagInstructionsWriteOneFlag : Obligations.FlagInstructionsWriteOneFlag := by
  intro i b f v s hrow
  have hform : HasForm i [(.implicit, b)] := flagRows_forms _ hrow ▸ i.hasForm_formsOf
  have hmode : i.mode = .implicit := (Prod.mk.inj (List.mem_singleton.mp hform)).1
  obtain ⟨t, ht⟩ := exec_answers i s
  have g := writeFlag_gives (exec_flagRows s _ hrow ▸ ht)
  rw [← hmode] at g
  refine ⟨hform, t, g.completes ht, ?written, fun q hq => ?others, g.keeps_regs, g.keeps_memory⟩
  case written => rw [g.flag, getFlag_setFlag, if_pos rfl]
  case others => rw [g.flag, getFlag_setFlag, if_neg (List.ne_of_not_mem_cons hq), State.flag]

end Sys2Proof.Machine
end

section
/-! TAX, TAY, TXA, TYA, TSX and TXS (48_flags_transfers.md R200 to R205). -/

namespace Sys2Proof.Machine

/-- An implicit instruction that transfers `src` to `dst` writes that value to `dst`, with Z and N from it (R200 to R204). -/
theorem writesRegister_of_transfer {i : Instr} {s : State} {src dst : Reg} (hmode : i.mode = .implicit)
    (he : exec i s = transfer src dst s) : WritesRegister i s dst (s.reg src) := by
  obtain ⟨t, ht⟩ := exec_answers i s
  have g := transfer_gives (he ▸ ht)
  rw [← hmode] at g
  exact g.writesRegister ht

/-- TXS copies X to SP and writes no flag (R205). -/
theorem exec_txs (s : State) : exec .txs s = .next { s with sp := s.x, pc := s.pc + 1 } := by
  obtain ⟨t, ht⟩ := exec_answers .txs s
  obtain ⟨-, g⟩ := exec_effect ht
  exact ht.trans (congrArg _ (State.ext_fields g.a g.x g.y g.sp g.pc g.p g.mem g.run))

/-- Settles O42: the first five are `transfer` of their two registers, TXS has its state written out. -/
theorem transfersCopyOneRegister : Obligations.TransfersCopyOneRegister := by
  refine fun s => ⟨?tax, ?tay, ?txa, ?tya, ?tsx, Instr.hasForm_formsOf .txs, exec_txs s⟩
  case tax => exact ⟨Instr.hasForm_formsOf .tax, writesRegister_of_transfer rfl (exec_by_op .tax s).2⟩
  case tay => exact ⟨Instr.hasForm_formsOf .tay, writesRegister_of_transfer rfl (exec_by_op .tay s).2⟩
  case txa => exact ⟨Instr.hasForm_formsOf .txa, writesRegister_of_transfer rfl (exec_by_op .txa s).2⟩
  case tya => exact ⟨Instr.hasForm_formsOf .tya, writesRegister_of_transfer rfl (exec_by_op .tya s).2⟩
  case tsx => exact ⟨Instr.hasForm_formsOf .tsx, writesRegister_of_transfer rfl (exec_by_op .tsx s).2⟩

end Sys2Proof.Machine
end

section
/-! RTI (49_system.md R212). -/

namespace Sys2Proof.Machine

/-- Settles O45: every field of the answer by `rti_gives`, whose generic advance for a one-byte instruction adds nothing to the pulled address. -/
theorem returnFromInterruptRestoresStatusAndPc : Obligations.ReturnFromInterruptRestoresStatusAndPc := by
  refine fun s => ⟨Instr.hasForm_formsOf .rti, ?effect⟩
  obtain ⟨t, ht⟩ := exec_answers .rti s
  obtain ⟨-, g⟩ := exec_effect ht
  exact ht.trans (congrArg _ (State.ext_fields g.a g.x g.y g.sp g.pc g.p g.mem g.run))

end Sys2Proof.Machine
end

section
/-! The encoding and the opcode map (30_encoding.md R70 to R76): each direction of the round trip, and the bytes no row has. -/

namespace Sys2Proof

/-- Settles O4: the row of an instruction's opcode byte makes that instruction of its operand bytes. -/
theorem decodeOfEncodeIsTheInstruction : Obligations.DecodeOfEncodeIsTheInstruction := by
  intro i rest _
  obtain ⟨-, -, r, hr, -, htake⟩ := Laws.Encoding.all i
  exact (decode_of_lookup hr _).trans (htake rest)

/-- Bytes that decode begin with the opcode byte of a row, which makes the instruction of the bytes after it. -/
theorem decode_ok {bytes rest : List Byte} {i : Instr} (h : decode bytes = .ok (i, rest)) :
    ∃ r tail, r ∈ opcodeTable ∧ bytes = r.opcode :: tail ∧ r.form.take tail = .ok (i, rest) := by
  cases bytes with
  | nil => cases h
  | cons b tail =>
    cases hr : lookupRow opcodeTable b with
    | none => simp [decode, hr] at h
    | some r =>
      obtain ⟨hmem, rfl⟩ := lookupRow_some hr
      exact ⟨r, tail, hmem, rfl, (decode_of_lookup hr tail).symm.trans h⟩

/-- The bytes a row makes an instruction of are its operand bytes, low byte first (R72). -/
theorem bytes_of_take {r : OpcodeRow} (h : r ∈ opcodeTable) {bytes rest : List Byte} {i : Instr}
    (ht : r.form.take bytes = .ok (i, rest)) : bytes = i.operand.bytes ++ rest := by
  have hfits := opcodeTable_fits r h
  unfold OpcodeRow.Fits at hfits
  obtain ⟨hr, rfl⟩ | ⟨g, v, hr, rfl, rfl⟩ | ⟨g, lo, hi, hr, rfl, rfl⟩ := RowForm.take_ok ht <;> rw [hr] at hfits
  · rw [hfits.2.2]; rfl
  · rw [(hfits v).2.2]; rfl
  · rw [(hfits (join hi lo)).2.2, Operand.bytes, loByte_join, hiByte_join]; rfl

/-- Settles O5: the opcode byte by the row, the operand bytes by `bytes_of_take`, the rest by the instruction's own lemma. -/
theorem decodedBytesAreTheEncoding : Obligations.DecodedBytesAreTheEncoding := by
  intro bytes i rest h
  obtain ⟨r, tail, hmem, rfl, htake⟩ := decode_ok h
  obtain ⟨hwf, hlength, -⟩ := Laws.Encoding.all i
  refine ⟨?bytes, hwf, hlength⟩
  rw [encode, (Machine.opcode_of_take hmem htake).1, bytes_of_take hmem htake, List.cons_append]

/-- A byte is rejected by name, whatever follows it, exactly when no row has it (R73). -/
theorem decode_invalidOpcode_iff (b : Byte) :
    (∀ rest, decode (b :: rest) = .error (.invalidOpcode b)) ↔ lookupRow opcodeTable b = none := by
  refine ⟨fun h => ?row, fun h rest => by simp [decode, h]⟩
  cases hr : lookupRow opcodeTable b with
  | none => rfl
  | some r =>
    obtain ⟨i, rest, htake⟩ := r.form.take_three 0 0
    cases (htake.symm.trans (decode_of_lookup hr _).symm).trans (h [0, 0])

/-- Settles O6: which of the 256 bytes have no row is read off the opcode map. -/
theorem unmappedBytesAreTheListedOnes : Obligations.UnmappedBytesAreTheListedOnes := by
  intro b
  rw [decode_invalidOpcode_iff, ← Option.isNone_iff_eq_none]
  revert b
  decide +kernel

/-- Settles O7: each word by evaluating the decoder. -/
theorem wordsWrittenFromTheOpcodeMapDecode : Obligations.WordsWrittenFromTheOpcodeMapDecode :=
  ⟨rfl, rfl, rfl, rfl, rfl, rfl, rfl, rfl, rfl, rfl, rfl⟩

end Sys2Proof
end

section
/-! The step (30_encoding.md R93): what it answers for each run state, and that it always answers (60_exceptions.md R220). -/

namespace Sys2Proof.Machine

theorem step_of_running {s : State} (h : s.run = .running) : step s = runningStep s := by
  simp only [step, sequencerStep, h]

/-- Settles O12: each run state but Running has the identity arm. -/
theorem stoppedBlockKeepsItsState : Obligations.StoppedBlockKeepsItsState := by
  intro s h
  cases hrun : s.run with
  | running => exact absurd hrun h
  | idle | halted | faulted _ => simp only [step, sequencerStep, hrun]

/-- Settles O8: the fetch is the decoded instruction, and a running step executes what it fetched. -/
theorem stepRunsTheDecodedInstruction : Obligations.StepRunsTheDecodedInstruction := by
  intro s i rest hrun hdecode
  have hfetch : fetch s = .ok i := by rw [fetch, hdecode]; rfl
  simp only [step_of_running hrun, runningStep, hfetch]

/-- Settles O11: a stopped block keeps its state, a running one executes an instruction or raises InvalidOpcode. -/
theorem everyStepAnswersAState : Obligations.EveryStepAnswersAState := by
  intro s
  by_cases hrun : s.run = .running
  case neg => exact ⟨s, stoppedBlockKeepsItsState s hrun⟩
  case pos =>
    rw [step_of_running hrun, runningStep]
    cases fetch s with
    | ok i => exact exec_answers i s
    | error _ => exact ⟨_, rfl⟩

/-- Where an instruction stands at PC, the fetched bytes begin with its encoding. -/
theorem StandsAtPc.fetchBytes_eq {i : Instr} {s : State} (h : StandsAtPc i s) : ∃ rest, fetchBytes s = encode i ++ rest := by
  have hopcode : s.read s.pc = i.opcode := by simpa using h 0 i.opcode rfl
  cases ho : i.operand with
  | none => exact ⟨_, by rw [fetchBytes, hopcode, encode, ho]; rfl⟩
  | byte v =>
    have hv : s.read (s.pc + 1) = v := h.read_operand (k := 0) (by rw [ho]; rfl)
    exact ⟨_, by rw [fetchBytes, hopcode, hv, encode, ho]; rfl⟩
  | word v =>
    have hlo : s.read (s.pc + 1) = loByte v := h.read_operand (k := 0) (by rw [ho]; rfl)
    have hhi : s.read (s.pc + 2) = hiByte v := h.read_operand (k := 1) (by rw [ho]; rfl)
    exact ⟨[], by rw [fetchBytes, hopcode, hlo, hhi, encode, ho]; rfl⟩

/-- Settles O9: the fetched bytes begin with the encoding, which decodes to the instruction. -/
theorem encodedBytesAtPcAreExecuted : Obligations.EncodedBytesAtPcAreExecuted := by
  intro s i hrun hwf hstands
  obtain ⟨rest, hfetch⟩ := hstands.fetchBytes_eq
  exact stepRunsTheDecodedInstruction s i rest hrun (hfetch ▸ decodeOfEncodeIsTheInstruction i rest hwf)

/-- Settles O10: of the ways a step can answer, only the InvalidOpcode one has a byte that is no instruction's. -/
theorem unmappedByteFaultsPrecisely : Obligations.UnmappedByteFaultsPrecisely := by
  intro s hrun hunmapped
  obtain ⟨t, ht⟩ := everyStepAnswersAState s
  obtain ⟨hstopped, -⟩ | ⟨-, i, hfetch, -⟩ | ⟨-, -, rfl⟩ := step_cases ht
  · exact absurd hrun hstopped
  · exact absurd (fetch_ok hfetch) (hunmapped i)
  · exact ht

end Sys2Proof.Machine
end

section
/-! The frame of every instruction: the registers, flags and bytes of memory it may change, and its PC, said once by mnemonic
(10_state.md R21 to R33; 20_memory.md R52, R57; 30_encoding.md R94). -/

namespace Sys2Proof

/-- The registers a mnemonic may write in a mode (10_state.md R21 to R23). -/
def Op.writtenRegs : Op → Mode → List Machine.Reg
  | .adc, _ | .sbc, _ | .and, _ | .ora, _ | .eor, _ | .lda, _ | .txa, _ | .tya, _ => [.a]
  | .asl, m | .lsr, m | .rol, m | .ror, m => if m = .accumulator then [.a] else []
  | .ldx, _ | .tax, _ | .tsx, _ | .inx, _ | .dex, _ => [.x]
  | .ldy, _ | .tay, _ | .iny, _ | .dey, _ => [.y]
  | .pla, _ => [.a, .sp]
  | .pha, _ | .php, _ | .plp, _ | .jsr, _ | .rts, _ | .rti, _ | .txs, _ => [.sp]
  | _, _ => []

/-- The flags a mnemonic may write (10_state.md R26 to R33). -/
def Op.writtenFlags : Op → List Machine.Flag
  | .adc | .sbc => [.c, .z, .v, .n]
  | .cmp | .cpx | .cpy | .asl | .lsr | .rol | .ror => [.c, .z, .n]
  | .bit => [.z, .n, .v]
  | .and | .ora | .eor | .lda | .ldx | .ldy | .inc | .dec | .inx | .iny | .dex | .dey | .pla | .tax | .tay | .txa | .tya | .tsx => [.z, .n]
  | .clc | .sec => [.c]
  | .cli | .sei => [.i]
  | .cld | .sed => [.d]
  | .clv => [.v]
  | .brk => [.b]
  | .plp | .rti => [.c, .z, .i, .d, .b, .u, .v, .n]
  | _ => []

namespace Machine

/-- The memory of `t` is that of `s` with a byte stored at each address, in order. -/
def StoresAt : List Word → State → State → Prop
  | [], s, t => t.mem = s.mem
  | addr :: addrs, s, t => ∃ v, StoresAt addrs (s.write addr v) t

/-- The mnemonics that set PC themselves or end the run (30_encoding.md R94). -/
abbrev pcWriters : List Op := [.bcc, .bcs, .beq, .bmi, .bne, .bpl, .bvc, .bvs, .jmp, .jsr, .rts, .rti, .brk]

/-- The run goes on, and `t` differs from `s` only where the instruction may write. -/
structure Framed (i : Instr) (s t : State) : Prop where
  run : t.run = s.run
  regs : RegsKeptBut (i.op.writtenRegs i.mode) s t
  flags : FlagsKeptBut i.op.writtenFlags s t
  mem : StoresAt (storedAddresses i s) s t
  pc : i.op ∉ pcWriters → t.pc = pastPc s i.mode

theorem StoresAt.wf {addrs : List Word} {s t : State} (h : StoresAt addrs s t) (hwf : s.mem.wf = true) : t.mem.wf = true := by
  induction addrs generalizing s with
  | nil => exact (congrArg Memory.wf h).trans hwf
  | cons addr addrs ih =>
    obtain ⟨v, h⟩ := h
    exact ih h (State.write_wf hwf addr v)

theorem StoresAt.keeps_memory_but {addrs : List Word} {s t : State} (h : StoresAt addrs s t) (hwf : s.mem.wf = true) :
    MemoryKeptBut addrs s t := by
  induction addrs generalizing s with
  | nil => exact fun a _ => by rw [State.read, State.read, show t.mem = s.mem from h]
  | cons addr addrs ih =>
    obtain ⟨v, h⟩ := h
    intro a ha
    obtain ⟨hne, hrest⟩ := List.mem_cons.not.mp ha |> not_or.mp
    rw [ih h (State.write_wf hwf addr v) a hrest, State.read_write hwf, if_neg hne]

theorem getFlag_addFlags_of_notMem (p r : Byte) (c v : Bool) {f : Flag} (hf : f ∉ [Flag.c, .z, .v, .n]) :
    getFlag (addFlags p r c v) f = getFlag p f := by
  cases f with
  | c | z | v | n => simp at hf
  | d | i | b | u => simp

theorem getFlag_shiftFlags_of_notMem (p : Byte) (r : Byte × Bool) {f : Flag} (hf : f ∉ [Flag.c, .z, .n]) :
    getFlag (shiftFlags p r) f = getFlag p f := by
  cases f with
  | c | z | n => simp at hf
  | v | d | i | b | u => simp

theorem getFlag_setFlag_of_notMem (p : Byte) (v : Bool) {f g : Flag} (hf : f ∉ [g]) :
    getFlag (setFlag p g v) f = getFlag p f := by
  rw [getFlag_setFlag, if_neg (List.ne_of_not_mem_cons hf)]

/-- The frame of an instruction from what it gives and what its mnemonic `o` may write. -/
theorem Gives.framed {i : Instr} {o : Op} {s t : State} {regs : Reg → Byte} {p : Byte} {pc : Word} {mem : Memory}
    (g : Gives s t regs p pc mem) (hop : i.op = o) (hregs : ∀ q, q ∉ o.writtenRegs i.mode → regs q = s.reg q)
    (hflags : ∀ f, f ∉ o.writtenFlags → getFlag p f = getFlag s.p f) (hmem : StoresAt (storedAddresses i s) s t)
    (hpc : o ∉ pcWriters → pc = pastPc s i.mode) : Framed i s t := by
  subst hop
  exact ⟨g.run, fun q hq => (g.reg q).trans (hregs q hq), fun f hf => (g.flag f).trans (hflags f hf), hmem, fun h => g.pc.trans (hpc h)⟩

/-- A register outside the one written is kept. -/
theorem oneReg_of_notMem {s : State} {r q : Reg} {v : Byte} (hq : q ∉ [r]) : oneReg s r v q = s.reg q :=
  if_neg (List.ne_of_not_mem_cons hq)

/-- An instruction that is listed with no stored address keeps the memory. -/
theorem storesAt_nil {i : Instr} {s t : State} (h : storedAddresses i s = []) (hmem : t.mem = s.mem) :
    StoresAt (storedAddresses i s) s t := h ▸ hmem

/-- An instruction that is listed with its effective address stores one byte there. -/
theorem storesAt_effectiveAddress {i : Instr} {s t : State} {ea : Word} {v : Byte}
    (h : storedAddresses i s = (effectiveAddress i s).toList) (hea : effectiveAddress i s = some ea)
    (hmem : t.mem = (s.write ea v).mem) : StoresAt (storedAddresses i s) s t := by
  rw [h, hea]
  exact ⟨v, hmem⟩

/-- The frame of a shift or rotate, of A or of memory (46_shifts.md R170 to R173). -/
theorem framed_of_shift {i : Instr} {s t : State} {f : Byte → Byte × Bool} (hop : i.op ∈ [.asl, .lsr, .rol, .ror])
    (h : (i.mode = .accumulator ∧ effectiveAddress i s = none ∧
        Gives s t (oneReg s .a (f s.a).1) (shiftFlags s.p (f s.a)) (pastPc s i.mode) s.mem) ∨
      (i.mode ≠ .accumulator ∧ ∃ ea, effectiveAddress i s = some ea ∧
        Gives s t s.reg (shiftFlags s.p (f (s.read ea))) (pastPc s i.mode) (s.write ea (f (s.read ea)).1).mem)) :
    Framed i s t := by
  have hflags : i.op.writtenFlags = [.c, .z, .n] := by
    generalize i.op = o at hop
    revert o
    decide
  have hregs : i.op.writtenRegs i.mode = if i.mode = .accumulator then [.a] else [] := by
    generalize i.op = o at hop
    revert o
    simp [Op.writtenRegs]
  have haddrs : storedAddresses i s = (effectiveAddress i s).toList := by
    simp only [List.mem_cons, List.not_mem_nil, or_false] at hop
    obtain hop | hop | hop | hop := hop <;> rw [storedAddresses, hop]
  obtain ⟨hmode, hea, g⟩ | ⟨-, ea, hea, g⟩ := h
  case inl =>
    refine g.framed rfl (hregs ▸ if_pos hmode ▸ fun _ => oneReg_of_notMem) (hflags ▸ fun _ => getFlag_shiftFlags_of_notMem _ _)
      (storesAt_nil (haddrs.trans ?_) g.mem) fun _ => rfl
    rw [hea]; rfl
  case inr =>
    exact g.framed rfl (fun _ _ => rfl) (hflags ▸ fun _ => getFlag_shiftFlags_of_notMem _ _)
      (storesAt_effectiveAddress haddrs hea g.mem) fun _ => rfl

/-- The frame of every instruction that raises no decimal error and is no halt. -/
theorem framed_of_exec {i : Instr} {s t : State} (hnot : i.op ∉ [.adc, .sbc, .brk]) (h : exec i s = .next t) : Framed i s t := by
  have he := exec_effect h
  cases hop : i.op <;> simp only [EffectByOp, hop] at he
  case adc | sbc | brk => simp [hop] at hnot
  case cmp | cpx | cpy =>
    obtain ⟨m, -, g⟩ := he
    exact g.framed hop (fun _ _ => rfl) (fun _ => getFlag_compareFlags_of_notMem _ _ _)
      (storesAt_nil (by rw [storedAddresses, hop]) g.mem) fun _ => rfl
  case bit =>
    obtain ⟨m, -, g⟩ := he
    exact g.framed hop (fun _ _ => rfl) (fun _ => getFlag_bitFlags_of_notMem _ _ _)
      (storesAt_nil (by rw [storedAddresses, hop]) g.mem) fun _ => rfl
  case and | ora | eor | lda | ldx | ldy =>
    obtain ⟨m, -, g⟩ := he
    exact g.framed hop (fun _ => oneReg_of_notMem) (fun _ => getFlag_setZN_of_notMem _ _)
      (storesAt_nil (by rw [storedAddresses, hop]) g.mem) fun _ => rfl
  case sta | stx | sty =>
    obtain ⟨ea, hea, g⟩ := he
    exact g.framed hop (fun _ _ => rfl) (fun _ _ => rfl)
      (storesAt_effectiveAddress (by rw [storedAddresses, hop]) hea g.mem) fun _ => rfl
  case inc | dec =>
    obtain ⟨ea, hea, g⟩ := he
    exact g.framed hop (fun _ _ => rfl) (fun _ => getFlag_setZN_of_notMem _ _)
      (storesAt_effectiveAddress (by rw [storedAddresses, hop]) hea g.mem) fun _ => rfl
  case asl | lsr | rol | ror => exact framed_of_shift (by simp [hop]) he
  case bcc | bcs | beq | bmi | bne | bpl | bvc | bvs | jmp =>
    obtain ⟨_, -, g⟩ := he
    exact g.framed hop (fun _ _ => rfl) (fun _ _ => rfl) (storesAt_nil (by rw [storedAddresses, hop]) g.mem)
      fun hpc => absurd (by decide) hpc
  case inx | iny | dex | dey | tax | tay | txa | tya | tsx =>
    obtain ⟨rfl, g⟩ := he
    exact g.framed rfl (fun _ => oneReg_of_notMem) (fun _ => getFlag_setZN_of_notMem _ _) g.mem fun _ => rfl
  case clc | cld | cli | clv | sec | sed | sei =>
    obtain ⟨rfl, g⟩ := he
    exact g.framed rfl (fun _ _ => rfl) (fun _ => getFlag_setFlag_of_notMem _ _) g.mem fun _ => rfl
  case pha | php =>
    obtain ⟨rfl, g⟩ := he
    exact g.framed rfl (fun _ => oneReg_of_notMem) (fun _ _ => rfl) ⟨_, g.mem⟩ fun _ => rfl
  case pla =>
    obtain ⟨rfl, g⟩ := he
    refine g.framed rfl (fun q hq => ?_) (fun _ => getFlag_setZN_of_notMem _ _) g.mem fun _ => rfl
    obtain ⟨ha, hsp⟩ := List.mem_cons.not.mp hq |> not_or.mp
    exact (if_neg ha).trans (oneReg_of_notMem hsp)
  case plp =>
    obtain ⟨rfl, g⟩ := he
    exact g.framed rfl (fun _ => oneReg_of_notMem) (fun f hf => absurd (by cases f <;> decide) hf) g.mem fun _ => rfl
  case rti =>
    obtain ⟨rfl, g⟩ := he
    exact g.framed rfl (fun _ => oneReg_of_notMem) (fun f hf => absurd (by cases f <;> decide) hf) g.mem
      fun hpc => absurd (by decide) hpc
  case txs =>
    obtain ⟨rfl, g⟩ := he
    exact g.framed rfl (fun _ => oneReg_of_notMem) (fun _ _ => rfl) g.mem fun _ => rfl
  case nop =>
    obtain ⟨rfl, g⟩ := he
    exact g.framed rfl (fun _ _ => rfl) (fun _ _ => rfl) g.mem fun _ => rfl
  case jsr =>
    obtain ⟨a, rfl, g⟩ := he
    exact g.framed rfl (fun _ => oneReg_of_notMem) (fun _ _ => rfl) ⟨_, _, g.mem⟩
      fun hpc => absurd (show Op.jsr ∈ pcWriters by decide) hpc
  case rts =>
    obtain ⟨rfl, g⟩ := he
    exact g.framed rfl (fun _ => oneReg_of_notMem) (fun _ _ => rfl) g.mem fun hpc => absurd (by decide) hpc

/-- The three ways `exec` can answer: the decimal error, the halt, or a run that goes on within the instruction's frame. -/
theorem exec_cases {i : Instr} {s t : State} (h : exec i s = .next t) :
    ((i.op = .adc ∨ i.op = .sbc) ∧ s.flag .d = true ∧ Config.decimalPolicy = .fault ∧
      t = s.setRun (.faulted ⟨.notImplementedInstruction, i.opcode, s.pc⟩)) ∨
    (i = .brk ∧ haltAt Config.brkHaltB s = .next t) ∨ (i.op ≠ .brk ∧ Framed i s t) := by
  by_cases hop : i.op ∈ [.adc, .sbc, .brk]
  case neg => exact .inr (.inr ⟨fun hbrk => hop (by simp [hbrk]), framed_of_exec hop h⟩)
  case pos =>
    have he := exec_effect h
    simp only [List.mem_cons, List.not_mem_nil, or_false] at hop
    obtain hop | hop | hop := hop <;> simp only [EffectByOp, hop] at he
    case inr.inr => exact .inr (.inl he)
    all_goals
      obtain ⟨m, -, ⟨hd, hpol, ht⟩ | ⟨-, g⟩⟩ := he
      · exact .inl ⟨by simp [hop], hd, hpol, ht⟩
      · exact .inr (.inr ⟨by simp [hop], g.framed hop (fun _ => oneReg_of_notMem) (fun _ => getFlag_addFlags_of_notMem _ _ _ _)
          (storesAt_nil (by rw [storedAddresses, hop]) g.mem) fun _ => rfl⟩)

end Machine
end Sys2Proof
end

section
/-! The rules of the whole machine, each read off the three ways `exec` can answer. -/

namespace Sys2Proof.Machine

/-- A register that an instruction changes is one its mnemonic writes: the decimal error and the halt change none. -/
theorem reg_mem_writtenRegs {i : Instr} {s t : State} (h : exec i s = .next t) {r : Reg} (hr : t.reg r ≠ s.reg r) :
    r ∈ i.op.writtenRegs i.mode := by
  by_contra hnot
  obtain ⟨-, -, -, rfl⟩ | ⟨-, hhalt⟩ | ⟨-, hframe⟩ := exec_cases h
  · exact hr (by cases r <;> rfl)
  · obtain ⟨ha, hx, hy, hsp, -⟩ := haltAt_next hhalt
    exact hr (by cases r <;> assumption)
  · exact hr (hframe.regs r hnot)

/-- Settles O46: for each register, the mnemonics that write it are the listed ones. -/
theorem onlyTheListedInstructionsWriteARegister : Obligations.OnlyTheListedInstructionsWriteARegister := by
  intro i s t h
  have hmem := fun r => reg_mem_writtenRegs h (r := r)
  generalize i.op = o at hmem ⊢
  refine ⟨fun hr => ?_, fun hr => ?_, fun hr => ?_, fun hr => ?_⟩
  case' refine_1 => replace hmem := hmem .a hr
  case' refine_2 => replace hmem := hmem .x hr
  case' refine_3 => replace hmem := hmem .y hr
  case' refine_4 => replace hmem := hmem .sp hr
  all_goals cases o <;> simp_all [Op.writtenRegs]

/-- A flag that an instruction changes is one its mnemonic writes, and the halt writes B only if the open parameter says so (R210). -/
theorem flag_mem_writtenFlags {i : Instr} {s t : State} (h : exec i s = .next t) {f : Flag} (hf : t.flag f ≠ s.flag f) :
    f ∈ i.op.writtenFlags ∧ (i.op = .brk → Config.brkHaltB = .set) := by
  obtain ⟨-, -, -, rfl⟩ | ⟨rfl, hhalt⟩ | ⟨hbrk, hframe⟩ := exec_cases h
  · exact absurd rfl hf
  · obtain ⟨-, -, -, -, -, -, -, hkept, hb⟩ := haltAt_next hhalt
    obtain rfl : f = .b := by_contra fun hne => hf (hkept f hne)
    exact ⟨List.mem_singleton_self _, fun _ => by_contra fun hset => hf (by simp [hb, hset])⟩
  · exact ⟨by_contra fun hnot => hf (hframe.flags f hnot), fun hop => absurd hop hbrk⟩

/-- Settles O47: for each flag, the mnemonics that write it are the listed ones. -/
theorem onlyTheListedInstructionsWriteAFlag : Obligations.OnlyTheListedInstructionsWriteAFlag := by
  refine fun i s t h => ⟨fun hf => ?_, fun hf => ?_, fun hf => ?_, fun hf => ?_, fun hf => ?_, fun hf => ?_, fun hf => ?_, fun hf => ?_⟩
  all_goals
    obtain ⟨hmem, hbrk⟩ := flag_mem_writtenFlags h hf
    generalize i.op = o at hmem hbrk
    cases o <;> simp_all [Op.writtenFlags]

/-- Settles O48: the decimal error and the halt keep all of memory, a run that goes on stores at the listed addresses only. -/
theorem onlyTheStoredBytesChange : Obligations.OnlyTheStoredBytesChange := by
  intro i s t hwf h
  obtain ⟨-, -, -, rfl⟩ | ⟨-, hhalt⟩ | ⟨-, hframe⟩ := exec_cases h
  · exact fun _ _ => rfl
  · obtain ⟨-, -, -, -, -, hmem, -⟩ := haltAt_next hhalt
    exact fun a _ => by rw [State.read, State.read, hmem]
  · exact hframe.mem.keeps_memory_but hwf

/-- Settles O49: the premises exclude the decimal error and the halt, so PC moves as the frame says; the length counts
the operand's bytes. -/
theorem pcAdvancesByTheLength : Obligations.PcAdvancesByTheLength := by
  intro i s hop hd
  obtain ⟨t, ht⟩ := exec_answers i s
  obtain ⟨-, hlength, -⟩ := Laws.Encoding.all i
  refine ⟨t, ht, ?pc, ?length⟩
  case pc =>
    obtain ⟨hadd, hd', -⟩ | ⟨rfl, -⟩ | ⟨-, hframe⟩ := exec_cases ht
    · exact absurd ((hd (by simpa using hadd)).symm.trans hd') Bool.false_ne_true
    · exact absurd (by decide) hop
    · exact hframe.pc hop
  case length =>
    rw [← hlength]
    cases i.operand <;> rfl

end Sys2Proof.Machine
end

section
/-! The invariant (60_exceptions.md R221 to R224; 49_system.md R210), and the four ways a running step can end (R227). -/

namespace Sys2Proof.Machine

/-- Settles O2: memory has no cell, and the run state is Idle. -/
theorem resetMeetsTheInvariant : Obligations.ResetMeetsTheInvariant := ⟨Memory.wf_nil, trivial⟩

/-- An instruction that was fetched at PC keeps the invariant of a running block. -/
theorem invariant_of_exec {i : Instr} {s t : State} (hwf : s.mem.wf = true) (hrun : s.run = .running) (hfetch : fetch s = .ok i)
    (h : exec i s = .next t) : Invariant t := by
  obtain ⟨hop, hd, hpol, rfl⟩ | ⟨rfl, hhalt⟩ | ⟨-, hframe⟩ := exec_cases h
  case inl => exact ⟨hwf, rfl, fetch_ok hfetch, hd, hpol, i, hfetch, rfl, hop⟩
  case inr.inl =>
    obtain ⟨-, -, -, -, hpc, hmem, hhalted, -⟩ := haltAt_next hhalt
    have hzero : t.read (t.pc - 1) = 0x00 := by
      rw [State.read, hmem, hpc, BitVec.add_sub_cancel]
      exact (fetch_ok hfetch).symm
    exact ⟨hmem ▸ hwf, by rw [runSound, hhalted]; exact hzero⟩
  case inr.inr => exact ⟨hframe.mem.wf hwf, by rw [runSound, hframe.run, hrun]; trivial⟩

/-- Settles O3: a stopped block keeps its state, a fetched instruction keeps the invariant, an unmapped byte leaves a true record. -/
theorem stepKeepsTheInvariant : Obligations.StepKeepsTheInvariant := by
  intro s t hinv h
  obtain ⟨-, rfl⟩ | ⟨hrun, i, hfetch, hexec⟩ | ⟨-, hrow, rfl⟩ := step_cases h
  · exact hinv
  · exact invariant_of_exec hinv.1 hrun hfetch hexec
  · exact ⟨hinv.1, rfl, rfl, hrow⟩

/-- A byte with no row is no instruction's opcode byte (R73). -/
theorem opcode_ne_of_lookupRow_none {b : Byte} (h : lookupRow opcodeTable b = none) (i : Instr) : i.opcode ≠ b := by
  rintro rfl
  obtain ⟨-, -, r, hr, -⟩ := Laws.Encoding.all i
  cases hr.symm.trans h

/-- Only BRK has the opcode byte 0x00 (R74). -/
theorem eq_brk_of_opcode {i : Instr} (h : i.opcode = 0x00) : i = .brk := by
  have hdecode := decodeOfEncodeIsTheInstruction i [] (Laws.Encoding.all i).1
  rw [encode, h] at hdecode
  cases hdecode
  rfl

/-- Settles O13: the endings of `step_cases`, with those of the fetched instruction by `exec_cases`. -/
theorem runningStepEndsInOneOfFourWays : Obligations.RunningStepEndsInOneOfFourWays := by
  intro s t hrun h
  obtain ⟨hstopped, -⟩ | ⟨-, i, hfetch, hexec⟩ | ⟨-, hrow, rfl⟩ := step_cases h
  · exact absurd hrun hstopped
  · have hopcode := fetch_ok hfetch
    obtain ⟨hop, hd, -, rfl⟩ | ⟨rfl, hhalt⟩ | ⟨hbrk, hframe⟩ := exec_cases hexec
    · exact .inr (.inr (.inl ⟨hopcode ▸ rfl, hd, i, hopcode, hop⟩))
    · obtain ⟨-, -, -, -, -, -, hhalted, -⟩ := haltAt_next hhalt
      exact .inl ⟨hhalted, hopcode.symm⟩
    · refine .inr (.inr (.inr ⟨hframe.run.trans hrun, fun hzero => hbrk ?_, i, hopcode⟩))
      exact congrArg Instr.op (eq_brk_of_opcode (hopcode.trans hzero))
  · exact .inr (.inl ⟨rfl, opcode_ne_of_lookupRow_none hrow⟩)

end Sys2Proof.Machine
end

section
/-! The operand byte (00_scope.md R12; 30_encoding.md R81). -/

namespace Sys2Proof

theorem formExists_accumulator {o : Op} : formExists o .accumulator = true ↔ o ∈ [Op.asl, .lsr, .rol, .ror] := by
  cases o <;> decide

namespace Machine

/-- Every mode but Implicit and Accumulator has an effective address (R82 to R92). -/
theorem effectiveAddress_exists {i : Instr} (hm : i.mode ∉ [.implicit, .accumulator]) (s : State) :
    ∃ ea, effectiveAddress i s = some ea := by
  cases hmode : i.mode with
  | implicit | accumulator => simp [hmode] at hm
  | immediate | zeroPage | zeroPageX | zeroPageY | indirectX | indirectY | relative =>
    obtain ⟨-, z, -, hea⟩ := effectiveAddress_of_byte_mode hmode rfl s
    exact ⟨_, hea⟩
  | absolute | absoluteX | absoluteY | indirect =>
    obtain ⟨-, a, -, hea⟩ := effectiveAddress_of_word_mode hmode rfl s
    exact ⟨_, hea⟩

/-- Settles O18: the memory modes have an effective address, and the operand byte is read there; Accumulator mode is
given to shifts only. -/
theorem operandByteIsReadAtTheEffectiveAddress : Obligations.OperandByteIsReadAtTheEffectiveAddress := by
  refine fun i s => ⟨fun hm => ?memory, fun hm => ?accumulator⟩
  case memory =>
    have hmode : i.mode ∉ [.implicit, .accumulator] ∧ i.mode ∉ [.immediate, .relative, .accumulator] := by
      generalize i.mode = m at hm
      revert m
      decide
    obtain ⟨ea, hea⟩ := effectiveAddress_exists hmode.1 s
    exact ⟨ea, hea, operandByte_of_effectiveAddress hmode.2 hea⟩
  case accumulator =>
    exact ⟨formExists_accumulator.mp (hm ▸ i.formExists_op_mode), by rw [hm]; rfl, operandByte_accumulator hm s⟩

end Machine
end Sys2Proof
end

section
/-! The adder, and ADC and SBC under both values of the decimal policy (40_arithmetic.md R110 to R112, laws; 90_conflicts.md C1). -/

namespace Sys2Proof.Machine

theorem bitOf_toNat (c : Bool) : (bitOf c).toNat = c.toNat := by cases c <;> rfl

/-- The sum AddCore gives, as a number (R110). -/
theorem addCore_sum_toNat (a m : Byte) (cin : Bool) :
    (addCore a m cin).1.toNat = (a.toNat + m.toNat + cin.toNat) % 256 := by
  simp only [addCore, bitOf_toNat, BitVec.toNat_ofNat]
  omega

/-- One of the two chained additions carries exactly when the whole sum does (R110). -/
theorem addCore_carry (a m : Byte) (cin : Bool) :
    (addCore a m cin).2.1 = decide (256 ≤ a.toNat + m.toNat + cin.toNat) := by
  have hcin := cin.toNat_le
  simp only [addCore, bitOf_toNat, ← Bool.decide_or, decide_eq_decide]
  omega

/-- The bit that R110 tests with 0x80 is bit 7. -/
theorem and_0x80_bne_zero (v : Byte) : (v &&& 0x80 != 0) = v.getLsbD 7 := by
  rw [show (0x80 : Byte) = BitVec.twoPow 8 7 from rfl, BitVec.and_twoPow]
  cases v.getLsbD 7 <;> rfl

/-- AddCore's overflow is bit 7 of its formula on the result (R110). -/
theorem addCore_overflow (a m : Byte) (cin : Bool) :
    (addCore a m cin).2.2 = ((a ^^^ (addCore a m cin).1) &&& (m ^^^ (addCore a m cin).1)).getLsbD 7 :=
  and_0x80_bne_zero _

theorem getLsbD_seven_eq_decide (v : Byte) : v.getLsbD 7 = decide (128 ≤ v.toNat) := v.msb_eq_decide

/-- Settles O19: the sum and the carry as numbers; the overflow by the sign bits of the operands and of the sum. -/
theorem adderGivesSumCarryAndSignedOverflow : Obligations.AdderGivesSumCarryAndSignedOverflow := by
  refine fun a m cin => ⟨addCore_sum_toNat a m cin, addCore_carry a m cin, ?overflow⟩
  have hsum := addCore_sum_toNat a m cin
  have ha := a.isLt; have hm := m.isLt
  have hcin := cin.toNat_le
  rw [addCore_overflow, BitVec.getLsbD_and, BitVec.getLsbD_xor, BitVec.getLsbD_xor, BitVec.toInt_eq_toNat_cond,
    BitVec.toInt_eq_toNat_cond, Bool.eq_iff_iff]
  simp only [getLsbD_seven_eq_decide, hsum, Bool.and_eq_true, bne_iff_ne, ne_eq, decide_eq_decide, decide_eq_true_eq]
  omega

/-- The sum AddCore gives, as a byte (R110). -/
theorem addCore_sum (a m : Byte) (cin : Bool) : (addCore a m cin).1 = a + m + (if cin then 1 else 0) := by
  apply BitVec.eq_of_toNat_eq
  rw [addCore_sum_toNat]
  cases cin <;> simp [BitVec.toNat_add]

/-- With `P.D = 0` the decimal guard lets the addition through (R110). -/
theorem adc_of_decimal_clear {s : State} (hd : s.flag .d = false) (pol : DecimalPolicy) (b : Byte) (mode : Mode) (m : Byte) :
    adc pol b mode m s = ordinary mode (addInto m) s :=
  if_neg (by simp [hd])

/-- `DECIMAL_POLICY = Binary` lets it through whatever `P.D` is (R110). -/
theorem adc_binary (b : Byte) (mode : Mode) (m : Byte) (s : State) : adc .binary b mode m s = ordinary mode (addInto m) s :=
  ite_self _

/-- `DECIMAL_POLICY = Fault` raises the error where `P.D = 1` (R110, R222). -/
theorem adc_fault {s : State} (hd : s.flag .d = true) (b : Byte) (mode : Mode) (m : Byte) :
    adc .fault b mode m s = .next { s with run := .faulted ⟨.notImplementedInstruction, b, s.pc⟩ } := if_pos hd

/-- ADC and SBC are the adder on the operand byte, complemented for SBC (R111, R112). -/
theorem exec_add {i : Instr} (hop : i.op = .adc ∨ i.op = .sbc) (s : State) :
    ∃ m, operandByte i s = some m ∧
      exec i s = adc Config.decimalPolicy i.opcode i.mode (if i.op = .adc then m else ~~~m) s := by
  have he := exec_by_op i s
  obtain hop | hop := hop <;> simp only [ExecByOp, hop, sbc_is_adc] at he <;> simpa [hop] using he

/-- The addition and its flags, where the decimal guard lets it through. -/
theorem completes_of_add {i : Instr} {s : State} {n : Byte} (he : exec i s = ordinary i.mode (addInto n) s) :
    ∃ t, Completes i s t ∧ t.a = s.a + n + (if s.flag .c then 1 else 0) ∧
      t.flag .c = decide (256 ≤ s.a.toNat + n.toNat + (s.flag .c).toNat) ∧
      t.flag .v = ((s.a ^^^ t.a) &&& (n ^^^ t.a)).getLsbD 7 ∧
      ShowsZN t.a t ∧ RegsKeptBut [.a] s t ∧ FlagsKeptBut [.c, .z, .v, .n] s t ∧ MemoryKeptBut [] s t := by
  obtain ⟨t, ht⟩ := exec_answers i s
  have g := addInto_gives (he ▸ ht)
  have ha : t.a = (addCore s.a n (s.flag .c)).1 := g.a
  refine ⟨t, g.completes ht, ha.trans (addCore_sum _ _ _), ?carry, ?overflow, ⟨?zero, ?negative⟩, fun _ hq => ?regs, fun f hf => ?flags,
    g.keeps_memory⟩
  case carry => simp [g.flag, addCore_carry]
  case overflow => simp [g.flag, ha, addCore_overflow]
  case zero => simp [g.flag, ha, beq_eq_decide]
  case negative => simp [g.flag, ha, bit7]
  case regs => exact (g.reg _).trans (oneReg_of_notMem hq)
  case flags => exact (g.flag f).trans (getFlag_addFlags_of_notMem _ _ _ _ hf)

/-- Settles O20: the forms are the mnemonic's rows of the opcode map; with `P.D = 0` the guard lets the addition through. -/
theorem addAndSubtractWithCarry : Obligations.AddAndSubtractWithCarry := by
  intro i s hop hd
  have hforms := i.hasForm_formsOf
  obtain ⟨m, hm, he⟩ := exec_add hop s
  obtain ⟨t, ht⟩ := completes_of_add (he.trans (adc_of_decimal_clear hd _ _ _ _))
  refine ⟨?_, m, _, t, hm, rfl, ht⟩
  obtain hop | hop := hop <;> rw [hop] at hforms ⊢ <;> exact hforms

/-- The addition neither reads nor writes D (R111). -/
theorem ordinary_addInto_setFlag_d {mode : Mode} {n : Byte} {s t : State} (hd : s.flag .d = true)
    (h : ordinary mode (addInto n) (s.setFlag .d false) = .next t) : ordinary mode (addInto n) s = .next (t.setFlag .d true) := by
  have g := addInto_gives h
  obtain ⟨t', ht'⟩ : ∃ t', ordinary mode (addInto n) s = .next t' := ⟨_, rfl⟩
  have g' := addInto_gives ht'
  have hc : (s.setFlag .d false).flag .c = s.flag .c := by simp [State.flag]
  rw [hc] at g
  refine ht'.trans (congrArg _ (State.ext_fields (g'.a.trans g.a.symm) (g'.x.trans g.x.symm) (g'.y.trans g.y.symm) (g'.sp.trans g.sp.symm)
    (g'.pc.trans g.pc.symm) (eq_of_getFlag fun f => ?status) (g'.mem.trans g.mem.symm) (g'.run.trans g.run.symm)))
  rw [g'.p, State.setFlag_p, g.p, State.setFlag_a]
  rw [State.flag] at hd
  cases f <;> simp [hd]

/-- Settles O21: each policy by its lemma about the guard; under Binary the sum with D clear is the sum with D set, but for D. -/
theorem decimalModeFaultsOrComputesInBinary : Obligations.DecimalModeFaultsOrComputesInBinary := by
  intro i s hop hd
  obtain ⟨m, hm, he⟩ := exec_add hop s
  obtain ⟨m', hm', he'⟩ := exec_add hop (s.setFlag .d false)
  obtain rfl : m = m' := Option.some.inj (hm.symm.trans hm')
  cases hpol : Config.decimalPolicy with
  | fault => rw [he, hpol, adc_fault hd]
  | binary =>
    rw [hpol, adc_binary] at he he'
    exact ⟨_, he', he.trans (ordinary_addInto_setFlag_d hd rfl)⟩

/-- ADC Immediate with `P.D = 0` puts the sum in A and leaves D (R111). -/
theorem exec_adcImmediate {s : State} (hd : s.flag .d = false) (v : Byte) :
    ∃ t, exec (.adcImmediate v) s = .next t ∧ t.a = s.a + v + (if s.flag .c then 1 else 0) ∧ t.flag .d = false := by
  obtain ⟨t, ⟨ht, -⟩, ha, -, -, -, -, hflags, -⟩ :=
    completes_of_add (i := .adcImmediate v) (n := v) (adc_of_decimal_clear hd _ _ _ _)
  exact ⟨t, ht, ha, (hflags .d (by decide)).trans hd⟩

/-- SBC Immediate with `P.D = 0` is ADC Immediate of the complement (R112, R117). -/
theorem exec_sbcImmediate {s : State} (hd : s.flag .d = false) (v : Byte) :
    exec (.sbcImmediate v) s = exec (.adcImmediate (~~~v)) s :=
  (adc_of_decimal_clear hd _ _ _ _).trans (adc_of_decimal_clear hd _ _ _ _).symm

/-- ADC of `v` and then, with carry in 1, SBC of `v` leave A as it was but for the carry into the ADC (R117, C1). -/
theorem adc_then_sbc {s : State} (hd : s.flag .d = false) (v : Byte) :
    ∃ t u, exec (.adcImmediate v) s = .next t ∧ exec (.sbcImmediate v) (t.setFlag .c true) = .next u ∧
      u.a = s.a + (if s.flag .c then 1 else 0) := by
  obtain ⟨t, ht, hta, htd⟩ := exec_adcImmediate hd v
  have htd' : (t.setFlag .c true).flag .d = false := by simpa [State.flag] using htd
  obtain ⟨u, hu, hua, -⟩ := exec_adcImmediate htd' (~~~v)
  refine ⟨t, u, ht, (exec_sbcImmediate htd' v).trans hu, ?_⟩
  have hc : (t.setFlag .c true).flag .c = true := by simp [State.flag]
  rw [hua, hc, State.setFlag_a, hta, if_pos rfl]
  have hneg : ~~~v + 1 = -v := (BitVec.neg_eq_not_add v).symm
  calc s.a + v + (if s.flag .c then 1 else 0) + ~~~v + 1
      = s.a + (if s.flag .c then 1 else 0) + v + (~~~v + 1) := by ring
    _ = s.a + (if s.flag .c then 1 else 0) := by rw [hneg]; ring

/-- Settles O23: the two round trips differ in the carry into the ADC. -/
theorem subtractIsAddOfComplementAndRoundTrips : Obligations.SubtractIsAddOfComplementAndRoundTrips := by
  refine ⟨fun s v hd => exec_sbcImmediate hd v, fun s v hd hc => ?clear, fun s v hd hc => ?set⟩
  case clear | set => simpa [hc] using adc_then_sbc hd v

end Sys2Proof.Machine
end

section
/-! The state an instruction gives, written out. -/

namespace Sys2Proof.Machine

theorem Gives.exec_eq {i : Instr} {s t : State} {regs : Reg → Byte} {p : Byte} {pc : Word} {mem : Memory}
    (g : Gives s t regs p pc mem) (h : exec i s = .next t) : exec i s =
      .next { a := regs .a, x := regs .x, y := regs .y, sp := regs .sp, pc := pc, p := p, mem := mem, run := s.run } :=
  h.trans (congrArg _ (State.ext_fields g.a g.x g.y g.sp g.pc g.p g.mem g.run))

end Sys2Proof.Machine
end

section
/-! LDA, LDX, LDY, STA, STX and STY (42_load_store.md R130 to R135). -/

namespace Sys2Proof.Machine

/-- The forms listed for each load are those of the opcode map. -/
theorem loadRows_forms : ∀ q ∈ loadRows, q.2.2 = formsOf q.1 := by decide

/-- The forms listed for each store are those of the opcode map. -/
theorem storeRows_forms : ∀ q ∈ storeRows, q.2.2 = formsOf q.1 := by decide

/-- A load puts its operand byte in its register. -/
theorem exec_load {i : Instr} {r : Reg} {forms : List (Mode × Byte)} (h : (i.op, r, forms) ∈ loadRows) (s : State) :
    ∃ m, operandByte i s = some m ∧ exec i s = load r i.mode m s := by
  have he := exec_by_op i s
  simp only [List.mem_cons, List.not_mem_nil, or_false, Prod.mk.injEq] at h
  obtain ⟨hop, rfl, -⟩ | ⟨hop, rfl, -⟩ | ⟨hop, rfl, -⟩ := h <;>
    simpa only [ExecByOp, hop] using he

/-- A store puts its register at its effective address. -/
theorem exec_store {i : Instr} {r : Reg} {forms : List (Mode × Byte)} (h : (i.op, r, forms) ∈ storeRows) (s : State) :
    ∃ ea, effectiveAddress i s = some ea ∧ exec i s = store r i.mode ea s := by
  have he := exec_by_op i s
  simp only [List.mem_cons, List.not_mem_nil, or_false, Prod.mk.injEq] at h
  obtain ⟨hop, rfl, -⟩ | ⟨hop, rfl, -⟩ | ⟨hop, rfl, -⟩ := h <;>
    simpa only [ExecByOp, hop] using he

/-- Settles O26: the forms by the opcode map, the effect by `load_gives`. -/
theorem loadsWriteTheirRegister : Obligations.LoadsWriteTheirRegister := by
  intro i s r forms hrow
  have hforms : forms = formsOf i.op := loadRows_forms _ hrow
  obtain ⟨m, hm, he⟩ := exec_load hrow s
  obtain ⟨t, ht⟩ := exec_answers i s
  exact ⟨hforms ▸ i.hasForm_formsOf, m, hm, (load_gives (he ▸ ht)).writesRegister ht⟩

/-- Settles O27: the forms by the opcode map, the effect by `store_gives`, which keeps the status byte. -/
theorem storesWriteOneByte : Obligations.StoresWriteOneByte := by
  intro i s r forms hwf hrow
  have hforms : forms = formsOf i.op := storeRows_forms _ hrow
  obtain ⟨ea, hea, he⟩ := exec_store hrow s
  obtain ⟨t, ht⟩ := exec_answers i s
  have g := store_gives (he ▸ ht)
  exact ⟨hforms ▸ i.hasForm_formsOf, ea, t, hea, g.completes ht, g.read_written hwf, g.keeps_memory_but hwf, g.keeps_regs,
    fun f _ => g.flag f⟩

end Sys2Proof.Machine
end

section
/-! The eight branches (43_branches.md R140 to R148), and the branch to itself (70_reset_and_hazards.md, non-termination). -/

namespace Sys2Proof.Machine

/-- Each branch has the Relative form listed with its opcode byte. -/
theorem branchRows_forms (d : Byte) : ∀ q ∈ branchRows d, HasForm q.1 [(.relative, q.2.1)] := by
  simp only [List.forall_mem_cons]
  exact ⟨List.mem_singleton_self _, List.mem_singleton_self _, List.mem_singleton_self _, List.mem_singleton_self _,
    List.mem_singleton_self _, List.mem_singleton_self _, List.mem_singleton_self _, List.mem_singleton_self _, List.forall_mem_nil _⟩

/-- A branch tests the listed flag for the listed value. -/
theorem exec_branchRows (d : Byte) (s : State) : ∀ q ∈ branchRows d, exec q.1 s = branch q.2.2.1 q.2.2.2 d s := by
  simp only [List.forall_mem_cons]
  exact ⟨rfl, rfl, rfl, rfl, rfl, rfl, rfl, rfl, List.forall_mem_nil _⟩

/-- Settles O28: the form by the opcode map, every field of the answer by `branch_gives`. -/
theorem branchesTestOneFlag : Obligations.BranchesTestOneFlag := by
  intro i b d f want s hrow
  refine ⟨branchRows_forms d _ hrow, ?_⟩
  obtain ⟨t, ht⟩ := exec_answers i s
  have g := branch_gives (exec_branchRows d s _ hrow ▸ ht)
  exact g.exec_eq ht

/-- A taken branch by -2 goes to itself: its step answers the same state. -/
theorem step_branch_to_itself {s : State} (hrun : s.run = .running) (hopcode : s.read s.pc = 0xD0) (hdisp : s.read (s.pc + 1) = 0xFE)
    (hz : s.flag .z = false) : step s = .next s := by
  have hdecode : decode (fetchBytes s) = .ok (.bne 0xFE, [s.read (s.pc + 2)]) := by rw [fetchBytes, hopcode, hdisp]; rfl
  have hback : s.pc + 2 + (0xFE : Byte).signExtend 16 = s.pc := by rw [BitVec.add_assoc]; exact BitVec.add_zero _
  have hexec := (branchesTestOneFlag (.bne 0xFE) 0xD0 0xFE .z false s (by decide)).2
  rw [if_pos hz, hback] at hexec
  exact (stepRunsTheDecodedInstruction s _ _ hrun hdecode).trans hexec

end Sys2Proof.Machine
end

section
/-! JSR and RTS (45_jumps_calls.md R161, R162). -/

namespace Sys2Proof.Machine

/-- The two bytes a JSR pushes, and every other byte of memory (R161, D16). -/
theorem read_of_exec_jsr {s t : State} {a : Word} (hwf : s.mem.wf = true) (h : exec (.jsr a) s = .next t) (b : Word) :
    t.read b = if b = stackAddr (s.sp - 1) then loByte (s.pc + 2) else if b = stackAddr s.sp then hiByte (s.pc + 2) else s.read b := by
  have g := call_gives (ea := a) h
  rw [g.read, ← State.read_write hwf]
  exact State.read_write (State.write_wf hwf _ _) _ b _

theorem stackAddr_ne_sub_one (sp : Byte) : stackAddr sp ≠ stackAddr (sp - 1) := fun h => by
  have := stackAddr_inj h
  bv_omega

theorem read_high_of_exec_jsr {s t : State} {a : Word} (hwf : s.mem.wf = true) (h : exec (.jsr a) s = .next t) :
    t.read (stackAddr s.sp) = hiByte (s.pc + 2) := by
  rw [read_of_exec_jsr hwf h, if_neg (stackAddr_ne_sub_one s.sp), if_pos rfl]

theorem read_low_of_exec_jsr {s t : State} {a : Word} (hwf : s.mem.wf = true) (h : exec (.jsr a) s = .next t) :
    t.read (stackAddr (s.sp - 1)) = loByte (s.pc + 2) := by
  rw [read_of_exec_jsr hwf h, if_pos rfl]

/-- Settles O32: registers, status and PC by `call_gives`, memory by `read_of_exec_jsr`. -/
theorem callPushesItsLastByteAddress : Obligations.CallPushesItsLastByteAddress := by
  intro s a hwf
  obtain ⟨t, ht⟩ := exec_answers (.jsr a) s
  have g := call_gives (ea := a) ht
  refine ⟨List.mem_singleton_self _, t, ht, g.pc, g.sp, read_high_of_exec_jsr hwf ht, read_low_of_exec_jsr hwf ht, fun b hb => ?memory,
    g.keeps_regs_but, fun f _ => g.flag f, g.run⟩
  obtain ⟨hhigh, hlow⟩ := List.mem_cons.not.mp hb |> not_or.mp
  exact (read_of_exec_jsr hwf ht b).trans ((if_neg (List.ne_of_not_mem_cons hlow)).trans (if_neg hhigh))

/-- RTS pulls PC low byte first and adds one (R162, D17). -/
theorem exec_rts (s : State) : exec .rts s = .next { s with
    sp := s.sp + 2
    pc := join (s.read (stackAddr (s.sp + 2))) (s.read (stackAddr (s.sp + 1))) + 1 } := by
  obtain ⟨t, ht⟩ := exec_answers .rts s
  obtain ⟨-, g⟩ := exec_effect ht
  exact g.exec_eq ht

/-- Settles O33: the form by the opcode map, the state by `exec_rts`. -/
theorem returnGoesToThePulledAddressPlusOne : Obligations.ReturnGoesToThePulledAddressPlusOne :=
  fun s => ⟨Instr.hasForm_formsOf .rts, exec_rts s⟩

/-- Settles O34: the two bytes RTS pulls are the two that JSR pushed, which make the address of JSR's last byte. -/
theorem callThenReturnComesBack : Obligations.CallThenReturnComesBack := by
  intro s t u a hwf hcall hsp hlow hhigh
  have htsp : t.sp = s.sp - 2 := (call_gives (ea := a) hcall).sp
  have hsp1 : t.sp + 1 = s.sp - 1 := by rw [htsp]; ring
  have hsp2 : t.sp + 2 = s.sp := by rw [htsp, BitVec.sub_add_cancel]
  rw [hsp1, read_low_of_exec_jsr hwf hcall] at hlow
  rw [hsp2, read_high_of_exec_jsr hwf hcall] at hhigh
  refine ⟨_, exec_rts u, ?pc, hsp ▸ hsp2⟩
  case pc =>
    rw [hsp, hsp1, hsp2, hlow, hhigh, join_bytes, BitVec.add_assoc]
    rfl

/-- Settles O35: the step executes the JSR whose operand field was fetched before it pushes. -/
theorem callTargetIsReadBeforeThePushes : Obligations.CallTargetIsReadBeforeThePushes := by
  intro s hrun hopcode
  have hdecode : decode (fetchBytes s) = .ok (.jsr (join (s.read (s.pc + 2)) (s.read (s.pc + 1))), []) := by
    rw [fetchBytes, hopcode]; rfl
  have hstep := stepRunsTheDecodedInstruction s _ _ hrun hdecode
  obtain ⟨t, ht⟩ := exec_answers (.jsr (join (s.read (s.pc + 2)) (s.read (s.pc + 1)))) s
  exact ⟨t, hstep.trans ht, (call_gives ht).pc⟩

end Sys2Proof.Machine
end

section
/-! PHP then PLP (47_stack.md, corner cases), BRK and NOP (49_system.md R210, R211). -/

namespace Sys2Proof.Machine

/-- Settles O40: the byte PLP pulls is the one PHP pushed, and SP is back where it was. -/
theorem pushThenPullStatusRestoresIt : Obligations.PushThenPullStatusRestoresIt := by
  intro s hwf
  obtain ⟨t, ht⟩ := exec_answers .php s
  obtain ⟨-, g⟩ := exec_effect ht
  obtain ⟨u, hu⟩ := exec_answers .plp t
  obtain ⟨-, g'⟩ := exec_effect hu
  have hsp : t.sp + 1 = s.sp := by rw [show t.sp = s.sp - 1 from g.sp, BitVec.sub_add_cancel]
  have hpulled : pullByte t = s.p := by rw [pullByte, hsp, g.read_written hwf]
  have husp : u.sp = s.sp := g'.sp.trans hsp
  refine ⟨t, u, ht, hu, g'.p.trans hpulled, husp, ?pc, fun r _ => ?regs, fun a ha => ?memory⟩
  case pc => rw [g'.pc, pastPc, g.pc, pastPc, BitVec.add_assoc]; rfl
  case regs =>
    cases r with
    | a | x | y => exact (g'.keeps_regs_but _ (by decide)).trans (g.keeps_regs_but _ (by decide))
    | sp => exact husp
  case memory => exact (g'.read a).trans (g.keeps_memory_but hwf a ha)

/-- Settles O43: `haltAt_next` at the open parameter. -/
theorem breakHaltsTheRun : Obligations.BreakHaltsTheRun := by
  refine fun s => ⟨Instr.hasForm_formsOf .brk, ?_⟩
  obtain ⟨t, ht⟩ := exec_answers .brk s
  obtain ⟨ha, hx, hy, hsp, hpc, hmem, hrun, hkept, hb⟩ := haltAt_next (s := s) (t := t) ht
  refine ⟨t, ht, hrun, hpc, ?b, fun f hf => hkept f (List.ne_of_not_mem_cons hf), fun r _ => ?regs, hmem⟩
  case b =>
    rw [hb]
    cases Config.brkHaltB <;> simp
  case regs => cases r <;> assumption

/-- Settles O44: every field of the answer by `nop_gives`. -/
theorem noOperationOnlyAdvances : Obligations.NoOperationOnlyAdvances := by
  refine fun s => ⟨Instr.hasForm_formsOf .nop, ?_⟩
  obtain ⟨t, ht⟩ := exec_answers .nop s
  obtain ⟨-, g⟩ := exec_effect ht
  exact g.exec_eq ht

end Sys2Proof.Machine
end

section
/-! Nine ROLs (46_shifts.md R172, corner cases): a ROL turns the nine bits of byte and carry by one place. -/

namespace Sys2Proof.Machine

/-- One ROL on a byte and the carry (R172). -/
def rolTurn (q : Byte × Bool) : Byte × Bool := rolOf q.2 q.1

/-- The nine bits of byte and carry in the order a ROL turns them: the carry, then the byte from bit 0 up. -/
def ringBit (q : Byte × Bool) (j : Nat) : Bool := if j = 0 then q.2 else q.1.getLsbD (j - 1)

theorem eq_of_ringBit {q q' : Byte × Bool} (h : ∀ j < 9, ringBit q j = ringBit q' j) : q = q' :=
  Prod.ext (BitVec.eq_of_getLsbD_eq fun j hj => h (j + 1) (by omega)) (h 0 (by omega))

theorem getElem_bitOf (c : Bool) {j : Nat} (hj : j < 8) : (bitOf c)[j] = (decide (j = 0) && c) := by
  cases c <;> simp [bitOf]

/-- After a turn every bit is the one before it in the ring, the carry the byte's bit 7. -/
theorem ringBit_rolTurn (q : Byte × Bool) {j : Nat} (hj : j < 9) : ringBit (rolTurn q) j = ringBit q ((j + 8) % 9) := by
  match j with
  | 0 => rfl
  | 1 => simp [ringBit, rolTurn, rolOf, getElem_bitOf]
  | j + 2 =>
    rw [show (j + 2 + 8) % 9 = j + 1 by omega]
    simp [ringBit, rolTurn, rolOf, getElem_bitOf, show j + 1 < 8 by omega, BitVec.getLsbD_eq_getElem (show j < 8 by omega)]

theorem ringBit_iterate_rolTurn (k : Nat) (q : Byte × Bool) {j : Nat} (hj : j < 9) :
    ringBit (rolTurn^[k] q) j = ringBit q ((j + 8 * k) % 9) := by
  induction k generalizing q with
  | zero => rw [Function.iterate_zero_apply, Nat.mul_zero, Nat.add_zero, Nat.mod_eq_of_lt hj]
  | succ k ih =>
    rw [Function.iterate_succ_apply, ih, ringBit_rolTurn q (Nat.mod_lt _ (by omega))]
    congr 1
    omega

theorem rolTurn_nine (q : Byte × Bool) : rolTurn^[9] q = q :=
  eq_of_ringBit fun j hj => by
    rw [ringBit_iterate_rolTurn 9 q hj, Nat.add_mul_mod_self_right, Nat.mod_eq_of_lt hj]

/-- One ROL, in A or at the effective address, turns its operand byte and the carry. -/
theorem exec_rol {i : Instr} {s : State} {v : Byte} (hwf : s.mem.wf = true) (hop : i.op = .rol) (hv : operandByte i s = some v) :
    ∃ t, exec i s = .next t ∧ t.mem.wf = true ∧ operandByte i t = some (rolTurn (v, s.flag .c)).1 ∧
      t.flag .c = (rolTurn (v, s.flag .c)).2 := by
  have hshift : i.op ∈ [.asl, .lsr, .rol, .ror] := by simp [hop]
  have he := exec_by_op i s
  simp only [ExecByOp, hop] at he
  obtain ⟨w, t, hw, ⟨ht, -⟩, hresult, ⟨hcarry, -⟩, -⟩ := completes_of_shiftForm hwf (mode_mem_shiftModes hshift) he
  obtain rfl : v = w := Option.some.inj (hv.symm.trans hw)
  exact ⟨t, ht, (framed_of_exec (by simp [hop]) ht).mem.wf hwf, hresult, hcarry⟩

/-- `k` ROLs turn the nine bits `k` times. -/
theorem execTimes_rol {i : Instr} (hop : i.op = .rol) (k : Nat) {s : State} {v : Byte} (hwf : s.mem.wf = true)
    (hv : operandByte i s = some v) :
    ∃ t, execTimes k i s = .next t ∧ operandByte i t = some (rolTurn^[k] (v, s.flag .c)).1 ∧
      t.flag .c = (rolTurn^[k] (v, s.flag .c)).2 := by
  induction k generalizing s v with
  | zero => exact ⟨s, rfl, hv, rfl⟩
  | succ k ih =>
    obtain ⟨t, ht, htwf, htv, htc⟩ := exec_rol hwf hop hv
    obtain ⟨u, hu, huv, huc⟩ := ih htwf htv
    rw [htc] at huv huc
    exact ⟨u, by rw [execTimes, ht]; exact hu, huv, huc⟩

/-- Settles O37: nine turns of nine bits are none. -/
theorem nineRotatesLeftRestoreByteAndCarry : Obligations.NineRotatesLeftRestoreByteAndCarry := by
  intro i s hwf hop
  have hshift : i.op ∈ [.asl, .lsr, .rol, .ror] := by simp [hop]
  obtain ⟨f, hf, -⟩ := shiftForm_by_op hshift s
  obtain ⟨v, -, hv, -⟩ := completes_of_shiftForm hwf (mode_mem_shiftModes hshift) hf
  obtain ⟨t, ht, htv, htc⟩ := execTimes_rol hop 9 hwf hv
  rw [rolTurn_nine] at htv htc
  exact ⟨t, ht, htv.trans hv.symm, htc⟩

end Sys2Proof.Machine
end

section
/-! Runs: the states after any number of steps (70_reset_and_hazards.md R256; 60_exceptions.md R225, R226, R236). -/

namespace Sys2Proof.Machine

theorem stateAfter_succ {s t : State} (h : step s = .next t) (k : Nat) : stateAfter (k + 1) s = stateAfter k t := by
  rw [stateAfter, h]

/-- A state that steps to itself is the state after any number of steps. -/
theorem stateAfter_of_step_self {s : State} (h : step s = .next s) (k : Nat) : stateAfter k s = s := by
  induction k with
  | zero => rfl
  | succ k ih => exact (stateAfter_succ h k).trans ih

theorem stateAfter_add (n k : Nat) (s : State) : stateAfter (n + k) s = stateAfter k (stateAfter n s) := by
  induction n generalizing s with
  | zero => rw [Nat.zero_add, stateAfter]
  | succ n ih =>
    obtain ⟨t, ht⟩ := everyStepAnswersAState s
    rw [Nat.succ_add, stateAfter_succ ht, stateAfter_succ ht, ih]

/-- Settles O51: the branch steps to the same state. -/
theorem branchToItselfNeverEnds : Obligations.BranchToItselfNeverEnds := fun n _ hrun hopcode hdisp hz =>
  stateAfter_of_step_self (step_branch_to_itself hrun hopcode hdisp hz) n

/-- Settles O52: a stopped block steps to the same state. -/
theorem endOfRunIsFinalUntilTheHostActs : Obligations.EndOfRunIsFinalUntilTheHostActs := by
  intro s n m hle hstopped
  obtain ⟨k, rfl⟩ := Nat.exists_eq_add_of_le hle
  rw [stateAfter_add]
  exact stateAfter_of_step_self (stoppedBlockKeepsItsState _ hstopped) k

end Sys2Proof.Machine
end

section
/-! The host's operations (70_reset_and_hazards.md R253, R254, R256, R261). -/

namespace Sys2Proof.Machine

theorem hostAct_of_running {s : State} (h : s.run = .running) (op : HostOp) : hostAct op s = .refused .hostActsWhileRunning := by
  rw [hostAct, h]

theorem hostAct_of_stopped {s : State} (h : s.run ≠ .running) (op : HostOp) : hostAct op s = .next (hostEffect op s) := by
  cases hrun : s.run with
  | running => exact absurd hrun h
  | idle | halted | faulted _ => rw [hostAct, hrun]

theorem hostLook_of_running {α : Type} {s : State} (h : s.run = .running) (f : State → α) :
    hostLook f s = .refused .hostActsWhileRunning := by
  rw [hostLook, h]

theorem hostLook_of_stopped {α : Type} {s : State} (h : s.run ≠ .running) (f : State → α) : hostLook f s = .next (f s) := by
  cases hrun : s.run with
  | running => exact absurd hrun h
  | idle | halted | faulted _ => rw [hostLook, hrun]

theorem hostBoot_of_stopped {s : State} (h : s.run ≠ .running) (addr : Word) (program : List Byte) :
    hostBoot addr program s = .next (startRun ((placeBytes addr program s).setPc addr)) := by
  cases hrun : s.run with
  | running => exact absurd hrun h
  | idle | halted | faulted _ => rw [hostBoot, hrun]

/-- Settles O53: a stopped block takes the operation's effect, which is an update of one component. -/
theorem hostActsOnlyOnAStoppedBlock : Obligations.HostActsOnlyOnAStoppedBlock := by
  refine ⟨fun op s h => hostAct_of_running h op, fun s h => ⟨hostAct_of_stopped h _, hostAct_of_stopped h _, fun r v => ?setReg,
    fun v => hostAct_of_stopped h _, fun v => hostAct_of_stopped h _, fun f v => ?setFlag, fun addr v hwf => ?write⟩⟩
  case setReg =>
    refine ⟨s.setReg r v, hostAct_of_stopped h _, ?_, fun q hq => ?_, by simp⟩
    · rw [State.setReg_reg, if_pos rfl]
    · rw [State.setReg_reg, if_neg (List.ne_of_not_mem_cons hq)]
  case setFlag =>
    refine ⟨s.setFlag f v, hostAct_of_stopped h _, ?_, fun g hg => getFlag_setFlag_of_notMem s.p v hg, fun r _ => by cases r <;> rfl,
      rfl, rfl, rfl⟩
    rw [State.flag, State.setFlag_p, getFlag_setFlag, if_pos rfl]
  case write =>
    refine ⟨s.write addr v, hostAct_of_stopped h _, ?_, fun a ha => ?_, fun r _ => by cases r <;> rfl, rfl, rfl, rfl⟩
    · rw [State.read_write hwf, if_pos rfl]
    · rw [State.read_write hwf, if_neg (List.ne_of_not_mem_cons ha)]

/-- Settles O54: every read is `hostLook` at its component. -/
theorem hostReadsOnlyAStoppedBlock : Obligations.HostReadsOnlyAStoppedBlock := by
  refine ⟨fun _ => rfl, fun s h => ?running, fun s h => ?stopped⟩
  case running =>
    exact ⟨fun _ => ⟨hostLook_of_running h _, hostLook_of_running h _⟩, fun _ => hostLook_of_running h _,
      fun _ => hostLook_of_running h _, hostLook_of_running h _, hostLook_of_running h _⟩
  case stopped =>
    exact ⟨fun _ => ⟨hostLook_of_stopped h _, hostLook_of_stopped h _⟩, fun _ => hostLook_of_stopped h _,
      fun _ => hostLook_of_stopped h _, hostLook_of_stopped h _, hostLook_of_stopped h _⟩

/-- Stopping early is no loss: a stopped block's further steps are the identity. -/
theorem stepsWithin_eq (n : Nat) (s : State) : stepsWithin n s = .next (stateAfter n s) := by
  induction n generalizing s with
  | zero => rfl
  | succ n ih =>
    by_cases hrun : s.run = .running
    case pos =>
      obtain ⟨t, ht⟩ := everyStepAnswersAState s
      rw [stateAfter_succ ht, ← ih]
      simp only [stepsWithin, hrun, ht]
    case neg =>
      rw [stateAfter_of_step_self (stoppedBlockKeepsItsState s hrun)]
      cases hrun' : s.run with
      | running => exact absurd hrun' hrun
      | idle | halted | faulted _ => simp only [stepsWithin, hrun']

/-- The host machine's own run never meets a fault or a refusal. -/
theorem core_run_eq (n : Nat) (s : State) : Host.Core.run Sys2Proof.core n s = .next (stateAfter n s) := by
  induction n generalizing s with
  | zero => rfl
  | succ n ih =>
    obtain ⟨t, ht⟩ := everyStepAnswersAState s
    have hcore : Sys2Proof.core.step s = .next t := ht
    rw [stateAfter_succ ht, ← ih t]
    simp only [Host.Core.run, hcore]

/-- Settles O56: both runs are the state after `n` steps. -/
theorem budgetedRunIsTheMachinesRun : Obligations.BudgetedRunIsTheMachinesRun := by
  refine fun n s hrun => ⟨?_, core_run_eq n s⟩
  rw [hostRun, hrun]
  exact stepsWithin_eq n s

end Sys2Proof.Machine
end

section
/-! Loading a program (70_reset_and_hazards.md R253, R254). -/

namespace Sys2Proof.Machine

theorem placeBytes_cons (addr : Word) (v : Byte) (vs : List Byte) (s : State) :
    placeBytes addr (v :: vs) s = placeBytes (addr + 1) vs (s.write addr v) := rfl

/-- Placing bytes changes memory only. -/
theorem placeBytes_eq (addr : Word) (vs : List Byte) (s : State) :
    placeBytes addr vs s = { s with mem := (placeBytes addr vs s).mem } := by
  induction vs generalizing addr s with
  | nil => rfl
  | cons v vs ih => exact ih (addr + 1) (s.write addr v)

/-- The address of a byte of the rest is one further from the first (R253, D1). -/
theorem add_ofNat_succ (addr : Word) (k : Nat) : addr + 1 + BitVec.ofNat 16 k = addr + BitVec.ofNat 16 (k + 1) := by
  rw [BitVec.add_assoc, BitVec.add_comm 1, BitVec.ofNat_add]
  rfl

/-- Addresses outside the placed bytes read as before. -/
theorem placeBytes_read_of_ne {vs : List Byte} {addr a : Word} {s : State} (hwf : s.mem.wf = true)
    (h : ∀ k, k < vs.length → a ≠ addr + BitVec.ofNat 16 k) : (placeBytes addr vs s).read a = s.read a := by
  induction vs generalizing addr s with
  | nil => rfl
  | cons v vs ih =>
    have hfirst : a ≠ addr := by simpa using h 0 (Nat.succ_pos _)
    rw [placeBytes_cons, ih (State.write_wf hwf addr v) fun k hk => add_ofNat_succ addr k ▸ h (k + 1) (Nat.succ_lt_succ hk),
      State.read_write hwf, if_neg hfirst]

/-- At most 65536 placed bytes read back: none is overwritten by a later one. -/
theorem placeBytes_read {vs : List Byte} {addr : Word} {s : State} (hwf : s.mem.wf = true) (hlen : vs.length ≤ 65536) {k : Nat}
    {b : Byte} (h : vs[k]? = some b) : (placeBytes addr vs s).read (addr + BitVec.ofNat 16 k) = b := by
  induction vs generalizing addr s k with
  | nil => cases h
  | cons v vs ih =>
    have hlen' : vs.length + 1 ≤ 65536 := hlen
    cases k with
    | zero =>
      obtain rfl : v = b := Option.some.inj h
      rw [placeBytes_cons, BitVec.add_zero, placeBytes_read_of_ne (State.write_wf hwf addr v), State.read_write hwf, if_pos rfl]
      intro j hj hwrap
      have hnat := congrArg BitVec.toNat hwrap
      rw [add_ofNat_succ, BitVec.toNat_add, BitVec.toNat_ofNat] at hnat
      omega
    | succ k =>
      rw [placeBytes_cons, ← add_ofNat_succ]
      exact ih (State.write_wf hwf addr v) (by omega) h

/-- Settles O55: the program's bytes by `placeBytes_read`, all else by the frame of `placeBytes`. -/
theorem bootLoadsTheProgramAndStarts : Obligations.BootLoadsTheProgramAndStarts := by
  intro addr program s hwf hstopped hlen
  refine ⟨_, hostBoot_of_stopped hstopped addr program, rfl, rfl, ?status, fun r _ => ?regs, fun k b h => placeBytes_read hwf hlen h,
    fun a h => placeBytes_read_of_ne hwf h⟩
  case status => exact (congrArg State.p (placeBytes_eq addr program s) :)
  case regs =>
    have := congrArg (State.reg · r) (placeBytes_eq addr program s)
    cases r <;> exact this

/-- Settles O57: the fetch after `withFetchWord` reads the word's three bytes back. -/
theorem placedWordIsTheNextInstruction : Obligations.PlacedWordIsTheNextInstruction := by
  intro s nbits w i hwf hdecode
  have hpc : (s.withFetchWord nbits w).pc = s.pc :=
    (congrArg State.pc (placeBytes_eq s.pc (bytesOfNat (w % 2 ^ nbits)) s) :)
  refine ⟨?step, hpc, rfl⟩
  have hread := fun k b => placeBytes_read (addr := s.pc) hwf (vs := bytesOfNat (w % 2 ^ nbits)) (k := k) (b := b)
    (show 3 ≤ 65536 by decide)
  have hfetch : fetchBytes (s.withFetchWord nbits w) = bytesOfNat (w % 2 ^ nbits) := by
    have hfirst := hread 0 _ rfl
    rw [BitVec.add_zero] at hfirst
    rw [fetchBytes, hpc]
    exact congrArg₂ _ hfirst (congrArg₂ _ (hread 1 _ rfl) (congrArg₂ _ (hread 2 _ rfl) rfl))
  rw [decodeTableWord] at hdecode
  split at hdecode
  case h_2 => cases hdecode
  case h_1 j rest hj =>
    cases hdecode
    exact stepRunsTheDecodedInstruction _ i rest rfl (hfetch ▸ hj)

end Sys2Proof.Machine
end

section
/-! I, B and U are read by PHP alone (10_state.md R28, R30, R31): the effects of an instruction in two states that differ in one of them. -/

namespace Sys2Proof.Machine

/-- Two status bytes that differ at most in one flag. -/
def FlagsAgreeBut (f : Flag) (p p' : Byte) : Prop := ∀ g, g ∉ [f] → getFlag p' g = getFlag p g

namespace FlagsAgreeBut

variable {f : Flag} {p p' : Byte}

theorem setFlag (h : FlagsAgreeBut f p p') (g : Flag) (v : Bool) : FlagsAgreeBut f (setFlag p g v) (setFlag p' g v) := fun q hq => by
  rw [getFlag_setFlag, getFlag_setFlag, h q hq]

theorem setZN (h : FlagsAgreeBut f p p') (v : Byte) : FlagsAgreeBut f (setZN p v) (setZN p' v) := (h.setFlag _ _).setFlag _ _

theorem addFlags (h : FlagsAgreeBut f p p') (r : Byte) (c v : Bool) : FlagsAgreeBut f (addFlags p r c v) (addFlags p' r c v) :=
  ((h.setFlag _ _).setFlag _ _).setZN _

theorem compareFlags (h : FlagsAgreeBut f p p') (reg m : Byte) : FlagsAgreeBut f (compareFlags p reg m) (compareFlags p' reg m) :=
  ((h.setFlag _ _).setFlag _ _).setFlag _ _

theorem bitFlags (h : FlagsAgreeBut f p p') (a m : Byte) : FlagsAgreeBut f (bitFlags p a m) (bitFlags p' a m) :=
  ((h.setFlag _ _).setFlag _ _).setFlag _ _

theorem shiftFlags (h : FlagsAgreeBut f p p') (r : Byte × Bool) : FlagsAgreeBut f (shiftFlags p r) (shiftFlags p' r) :=
  (h.setFlag _ _).setZN _

end FlagsAgreeBut

/-- States that differ in one flag are one state with two status bytes. -/
theorem SameButFlag.eq_setP {f : Flag} {s s' : State} (h : SameButFlag f s s') : s' = s.setP s'.p ∧ FlagsAgreeBut f s.p s'.p := by
  obtain ⟨ha, hx, hy, hsp, hpc, hmem, hrun, hflags⟩ := h
  exact ⟨State.ext_fields ha hx hy hsp hpc rfl hmem hrun, hflags⟩

/-- What gives the same but for the status byte leaves states that differ as the status bytes do. -/
theorem Gives.sameButFlag {f : Flag} {s s' t t' : State} {regs : Reg → Byte} {p p' : Byte} {pc : Word} {mem : Memory}
    (g : Gives s t regs p pc mem) (g' : Gives s' t' regs p' pc mem) (hrun : s'.run = s.run) (hp : FlagsAgreeBut f p p') :
    SameButFlag f t t' :=
  ⟨g'.a.trans g.a.symm, g'.x.trans g.x.symm, g'.y.trans g.y.symm, g'.sp.trans g.sp.symm, g'.pc.trans g.pc.symm, g'.mem.trans g.mem.symm,
    g'.run.trans (hrun.trans g.run.symm), fun q hq => (g'.flag q).trans ((hp q hq).trans (g.flag q).symm)⟩

/-- Two facts about the value of one operand are about one value. -/
theorem exists_and_of_eq_some {α : Type} {o : Option α} {P Q : α → Prop} (h : ∃ m, o = some m ∧ P m) (h' : ∃ m, o = some m ∧ Q m) :
    ∃ m, P m ∧ Q m := by
  obtain ⟨m, hm, hp⟩ := h
  obtain ⟨m', hm', hq⟩ := h'
  obtain rfl : m = m' := Option.some.inj (hm.symm.trans hm')
  exact ⟨m, hp, hq⟩

/-- The halt reads no flag (R210). -/
theorem sameButFlag_of_haltAt {hb : BrkHaltB} {f : Flag} {s t t' : State} {q : Byte} (hq : FlagsAgreeBut f s.p q)
    (h : haltAt hb s = .next t) (h' : haltAt hb (s.setP q) = .next t') : SameButFlag f t t' := by
  obtain ⟨ha, hx, hy, hsp, hpc, hmem, hrun, hkept, hset⟩ := haltAt_next h
  obtain ⟨ha', hx', hy', hsp', hpc', hmem', hrun', hkept', hset'⟩ := haltAt_next h'
  refine ⟨ha'.trans ha.symm, hx'.trans hx.symm, hy'.trans hy.symm, hsp'.trans hsp.symm, hpc'.trans hpc.symm, hmem'.trans hmem.symm,
    hrun'.trans hrun.symm, fun r hr => ?_⟩
  have hagree : (s.setP q).flag r = s.flag r := hq r hr
  by_cases hrb : r = .b
  · subst hrb
    rw [hset, hset', hagree]
  · rw [hkept r hrb, hkept' r hrb, hagree]

/-- Every instruction but PHP resolves the same operand from both states, tests flags they share, and goes
to states that differ at most in the same flag. -/
theorem exec_sameButFlag {i : Instr} {f : Flag} {s t t' : State} {q : Byte} (hphp : i.op ≠ .php) (hf : f ∈ [Flag.i, .b, .u])
    (hq : FlagsAgreeBut f s.p q) (h : exec i s = .next t) (h' : exec i (s.setP q) = .next t') : SameButFlag f t t' := by
  have hread : ∀ r ∉ [Flag.i, .b, .u], (s.setP q).flag r = s.flag r := fun r hr =>
    hq r fun hrf => hr (List.mem_singleton.mp hrf ▸ hf)
  have hc := hread .c (by decide)
  have hz := hread .z (by decide)
  have hv := hread .v (by decide)
  have hn := hread .n (by decide)
  have hd := hread .d (by decide)
  have he := exec_effect h
  have he' := exec_effect h'
  cases hop : i.op <;> simp only [EffectByOp, hop, hc, hz, hv, hn, hd] at he he'
  case php => exact absurd hop hphp
  case adc | sbc =>
    obtain ⟨m, he, he'⟩ := exists_and_of_eq_some he he'
    obtain ⟨hset, hpol, rfl⟩ | ⟨hgo, g⟩ := he <;> obtain ⟨hset', hpol', rfl⟩ | ⟨hgo', g'⟩ := he'
    · exact ⟨rfl, rfl, rfl, rfl, rfl, rfl, rfl, hq⟩
    · simp [hset, hpol] at hgo'
    · simp [hset', hpol'] at hgo
    · exact g.sameButFlag g' rfl (hq.addFlags _ _ _)
  case cmp | cpx | cpy =>
    obtain ⟨m, g, g'⟩ := exists_and_of_eq_some he he'
    exact g.sameButFlag g' rfl (hq.compareFlags _ _)
  case bit =>
    obtain ⟨m, g, g'⟩ := exists_and_of_eq_some he he'
    exact g.sameButFlag g' rfl (hq.bitFlags _ _)
  case and | ora | eor | lda | ldx | ldy | inc | dec =>
    obtain ⟨m, g, g'⟩ := exists_and_of_eq_some he he'
    exact g.sameButFlag g' rfl (hq.setZN _)
  case sta | stx | sty | jmp =>
    obtain ⟨ea, g, g'⟩ := exists_and_of_eq_some he he'
    exact g.sameButFlag g' rfl hq
  case bcc | bcs | beq | bmi | bne | bpl | bvc | bvs | jsr =>
    obtain ⟨d, rfl, g⟩ := he
    obtain ⟨d', hd', g'⟩ := he'
    cases hd'
    exact g.sameButFlag g' rfl hq
  case asl | lsr | rol | ror =>
    obtain ⟨hm, -, g⟩ | ⟨hm, he⟩ := he <;> obtain ⟨hm', -, g'⟩ | ⟨hm', he'⟩ := he'
    · exact g.sameButFlag g' rfl (hq.shiftFlags _)
    · exact absurd hm hm'
    · exact absurd hm' hm
    · obtain ⟨ea, g, g'⟩ := exists_and_of_eq_some he he'
      exact g.sameButFlag g' rfl (hq.shiftFlags _)
  case inx | iny | dex | dey | tax | tay | txa | tya | tsx | pla => exact he.2.sameButFlag he'.2 rfl (hq.setZN _)
  case clc | cld | cli | clv | sec | sed | sei => exact he.2.sameButFlag he'.2 rfl (hq.setFlag _ _)
  case plp | rti => exact he.2.sameButFlag he'.2 rfl fun _ _ => rfl
  case rts | pha | txs | nop => exact he.2.sameButFlag he'.2 rfl hq
  case brk => exact sameButFlag_of_haltAt hq he.2 he'.2

/-- Settles O50: the second state is the first with another status byte, and every instruction answers it. -/
theorem onlyPushStatusReadsInterruptBreakAndUnused : Obligations.OnlyPushStatusReadsInterruptBreakAndUnused := by
  intro i f s s' t hphp hf hsame h
  obtain ⟨heq, hq⟩ := hsame.eq_setP
  obtain ⟨t', ht'⟩ := exec_answers i s'
  exact ⟨t', ht', exec_sameButFlag hphp hf hq h (heq ▸ ht')⟩

end Sys2Proof.Machine
end
